-- ==== Sys2Proof/Word.lean ====
section
/-! DEFINITION. The word and byte types of the QRGF engine (00_scope R13, R14; 20_memory R60). -/

namespace Sys2Proof

/-- A host-port word or a command word: 32 bits (20_memory R60, 30_encoding R90). -/
abbrev Word := BitVec 32

/-- A byte: a GF element, a codeword or a polynomial coefficient (00_scope R14). -/
abbrev Byte := BitVec 8

/-- A host-port word address: 16 bits (20_memory R60). -/
abbrev Addr := BitVec 16

end Sys2Proof
end

