-- ==== Sys2Proof/Syntax.lean ====
section
/-! DEFINITION. The 22 commands, one constructor per row of spec/opcode_table.json (30_encoding R93), each with the operand
fields of its format (R91, R92). A numeric operand is the unsigned integer in its field, a natural number (R92, R104); the
value bit `v` and the set-reserved bit `s` of format FC are Booleans. -/

namespace Sys2Proof

/-- A command with its operands (30_encoding R93). -/
inductive Instr where
  /-- GF.EXP a (R125). -/
  | gfExp (a : Nat)
  /-- GF.LOG a (R126). -/
  | gfLog (a : Nat)
  /-- GF.MUL a, b (R127). -/
  | gfMul (a b : Nat)
  /-- POLY.MUL p, q (R141). -/
  | polyMul (p q : Nat)
  /-- POLY.MOD p, q (R144). -/
  | polyMod (p q : Nat)
  /-- POLY.GEN n (R147). -/
  | polyGen (n : Nat)
  /-- RS.INIT n (R161). -/
  | rsInit (n : Nat)
  /-- RS.ENC n (R164). -/
  | rsEnc (n : Nat)
  /-- ILV.BUILD B, e, T (R265). -/
  | ilvBuild (B e T : Nat)
  /-- MAT.INIT n (R183). -/
  | matInit (n : Nat)
  /-- MAT.SET r, c, v, s (R184). -/
  | matSet (r c : Nat) (v sr : Bool)
  /-- MAT.XOR r, c, v (R185). -/
  | matXor (r c : Nat) (v : Bool)
  /-- MAT.GET r, c (R186). -/
  | matGet (r c : Nat)
  /-- SP.ACOORD n (R213). -/
  | spAcoord (n : Nat)
  /-- SP.FINDER (R202). -/
  | spFinder
  /-- SP.TIMING (R204). -/
  | spTiming
  /-- SP.ALIGN (R208). -/
  | spAlign
  /-- SP.FORMAT (R210). -/
  | spFormat
  /-- SP.VERSION (R212). -/
  | spVersion
  /-- SP.DARK (R215). -/
  | spDark
  /-- SP.PLACE n (R216). -/
  | spPlace (n : Nat)
  /-- DP.ZIGZAG (R242). -/
  | dpZigzag
  deriving DecidableEq, Repr

end Sys2Proof
end

