-- ==== Sys2Proof/WellFormed.lean ====
section
/-! DEFINITION. Which commands have an encoding: every operand fits its field (30_encoding R91, R92). These are the operands
an assembler accepts (R98); range limits below the field's width (for example p at most 256) are each command's own check and
raise its fault, so they are not part of this. -/

namespace Sys2Proof

/-- Every operand of the command fits the field its format gives it (R91, R98). -/
def Instr.wellFormed : Instr → Bool
  | .gfExp a => a < 2 ^ 8
  | .gfLog a => a < 2 ^ 8
  | .gfMul a b => a < 2 ^ 8 && b < 2 ^ 8
  | .polyMul p q => p < 2 ^ 12 && q < 2 ^ 12
  | .polyMod p q => p < 2 ^ 12 && q < 2 ^ 12
  | .polyGen n => n < 2 ^ 12
  | .rsInit n => n < 2 ^ 12
  | .rsEnc n => n < 2 ^ 12
  | .ilvBuild B e T => B < 2 ^ 7 && e < 2 ^ 8 && T < 2 ^ 12
  | .matInit n => n < 2 ^ 12
  | .matSet r c _ _ => r < 2 ^ 8 && c < 2 ^ 8
  | .matXor r c _ => r < 2 ^ 8 && c < 2 ^ 8
  | .matGet r c => r < 2 ^ 8 && c < 2 ^ 8
  | .spAcoord n => n < 2 ^ 12
  | .spFinder => true
  | .spTiming => true
  | .spAlign => true
  | .spFormat => true
  | .spVersion => true
  | .spDark => true
  | .spPlace n => n < 2 ^ 12
  | .dpZigzag => true

end Sys2Proof
end

