-- ==== Sys2Proof/Decode.lean ====
section
/-! DEFINITION. The decoder of 30_encoding R96, total on all 32-bit words and rejecting by name, over the opcode map of R93,
and the encoder written from the same tables (R91-R93). -/

namespace Sys2Proof

/-- Why a word is no command (R94, R95); both raise ILLEGAL, with the sub-code `Illegal.sub`. -/
inductive Illegal where
  /-- Opcode 0x00 or 0x17-0x1F (R94). -/
  | reservedOpcode
  /-- A defined opcode with a 1 in a must-be-zero bit (R95). -/
  | mustBeZero
  deriving DecidableEq, Repr

/-- What the decoder answers (R96). -/
inductive Decoded where
  | cmd (i : Instr)
  | illegal (why : Illegal)
  deriving DecidableEq, Repr

/-- The ILLEGAL sub-code of a rejection (R94, R95). -/
def Illegal.sub : Illegal → Nat
  | .reservedOpcode => 1
  | .mustBeZero => 2

/-- The unsigned integer in the `len` bits of `w` from bit `lo` up (R92). -/
def field (w : Word) (lo len : Nat) : Nat := (w.extractLsb' lo len).toNat

/-- The opcode, bits [31:27] (R90). -/
def opcodeOf (w : Word) : Nat := field w 27 5

/-- One row of the opcode map (R93): opcode, mnemonic, match, mask, and the operands its format assembles (R92). -/
structure OpRow where
  opcode : Nat
  mnemonic : String
  pattern : Word
  mask : Word
  operands : Word → Instr

/-- The rows of the families GF, POLY, RS and ILV (R93). -/
def arithmeticRows : List OpRow :=
  [ ⟨0x01, "GF.EXP", 0x08000000, 0xFFFF00FF, fun w => .gfExp (field w 8 8)⟩,
    ⟨0x02, "GF.LOG", 0x10000000, 0xFFFF00FF, fun w => .gfLog (field w 8 8)⟩,
    ⟨0x03, "GF.MUL", 0x18000000, 0xFFFF0000, fun w => .gfMul (field w 8 8) (field w 0 8)⟩,
    ⟨0x04, "POLY.MUL", 0x20000000, 0xFF000000, fun w => .polyMul (field w 12 12) (field w 0 12)⟩,
    ⟨0x05, "POLY.MOD", 0x28000000, 0xFF000000, fun w => .polyMod (field w 12 12) (field w 0 12)⟩,
    ⟨0x06, "POLY.GEN", 0x30000000, 0xFFFFF000, fun w => .polyGen (field w 0 12)⟩,
    ⟨0x07, "RS.INIT", 0x38000000, 0xFFFFF000, fun w => .rsInit (field w 0 12)⟩,
    ⟨0x08, "RS.ENC", 0x40000000, 0xFFFFF000, fun w => .rsEnc (field w 0 12)⟩,
    ⟨0x09, "ILV.BUILD", 0x48000000, 0xF8000000,
      fun w => .ilvBuild (field w 20 7) (field w 12 8) (field w 0 12)⟩ ]

/-- The rows of the families MAT, SP and DP (R93). -/
def matrixRows : List OpRow :=
  [ ⟨0x0A, "MAT.INIT", 0x50000000, 0xFFFFF000, fun w => .matInit (field w 0 12)⟩,
    ⟨0x0B, "MAT.SET", 0x58000000, 0xFF0000FC,
      fun w => .matSet (field w 16 8) (field w 8 8) (w.getLsbD 1) (w.getLsbD 0)⟩,
    ⟨0x0C, "MAT.XOR", 0x60000000, 0xFF0000FD,
      fun w => .matXor (field w 16 8) (field w 8 8) (w.getLsbD 1)⟩,
    ⟨0x0D, "MAT.GET", 0x68000000, 0xFF0000FF, fun w => .matGet (field w 16 8) (field w 8 8)⟩,
    ⟨0x0E, "SP.ACOORD", 0x70000000, 0xFFFFF000, fun w => .spAcoord (field w 0 12)⟩,
    ⟨0x0F, "SP.FINDER", 0x78000000, 0xFFFFFFFF, fun _ => .spFinder⟩,
    ⟨0x10, "SP.TIMING", 0x80000000, 0xFFFFFFFF, fun _ => .spTiming⟩,
    ⟨0x11, "SP.ALIGN", 0x88000000, 0xFFFFFFFF, fun _ => .spAlign⟩,
    ⟨0x12, "SP.FORMAT", 0x90000000, 0xFFFFFFFF, fun _ => .spFormat⟩,
    ⟨0x13, "SP.VERSION", 0x98000000, 0xFFFFFFFF, fun _ => .spVersion⟩,
    ⟨0x14, "SP.DARK", 0xA0000000, 0xFFFFFFFF, fun _ => .spDark⟩,
    ⟨0x15, "SP.PLACE", 0xA8000000, 0xFFFFF000, fun w => .spPlace (field w 0 12)⟩,
    ⟨0x16, "DP.ZIGZAG", 0xB0000000, 0xFFFFFFFF, fun _ => .dpZigzag⟩ ]

/-- The opcode map of R93. -/
def opcodeTable : List OpRow := arithmeticRows ++ matrixRows

/-- The row with a given opcode; none for a reserved opcode (R94). -/
def rowOf (opcode : Nat) : Option OpRow := opcodeTable.find? (fun row => row.opcode == opcode)

/-- Decode (R96): reserved opcodes first, then the must-be-zero bits, then the operands. -/
def decode (w : Word) : Decoded :=
  match rowOf (opcodeOf w) with
  | none => .illegal .reservedOpcode
  | some row => if w &&& row.mask = row.pattern then .cmd (row.operands w) else .illegal .mustBeZero

/-- The command in a word of `nbits` bits numbered as spec/opcode_table.json numbers them: one 32-bit word, bit 0 its least
significant bit, the bits above `nbits` zero. -/
def decodeTableWord (nbits w : Nat) : Option Instr :=
  match decode (BitVec.ofNat 32 (w % 2 ^ nbits)) with
  | .cmd i => some i
  | .illegal _ => none

/-- The integer `n` put into the `len` bits from bit `lo` up (R91, R92). -/
def putField (lo len n : Nat) : Word := (BitVec.ofNat len n).setWidth 32 <<< lo

/-- The bit `b` put at position `lo` (R91, format FC). -/
def putBit (lo : Nat) (b : Bool) : Word := (BitVec.ofBool b).setWidth 32 <<< lo

/-- The command word (R91-R93): the opcode's match word with every operand in its field. -/
def encode : Instr → Word
  | .gfExp a => 0x08000000 ||| putField 8 8 a
  | .gfLog a => 0x10000000 ||| putField 8 8 a
  | .gfMul a b => 0x18000000 ||| putField 8 8 a ||| putField 0 8 b
  | .polyMul p q => 0x20000000 ||| putField 12 12 p ||| putField 0 12 q
  | .polyMod p q => 0x28000000 ||| putField 12 12 p ||| putField 0 12 q
  | .polyGen n => 0x30000000 ||| putField 0 12 n
  | .rsInit n => 0x38000000 ||| putField 0 12 n
  | .rsEnc n => 0x40000000 ||| putField 0 12 n
  | .ilvBuild B e T => 0x48000000 ||| putField 20 7 B ||| putField 12 8 e ||| putField 0 12 T
  | .matInit n => 0x50000000 ||| putField 0 12 n
  | .matSet r c v sr => 0x58000000 ||| putField 16 8 r ||| putField 8 8 c ||| putBit 1 v ||| putBit 0 sr
  | .matXor r c v => 0x60000000 ||| putField 16 8 r ||| putField 8 8 c ||| putBit 1 v
  | .matGet r c => 0x68000000 ||| putField 16 8 r ||| putField 8 8 c
  | .spAcoord n => 0x70000000 ||| putField 0 12 n
  | .spFinder => 0x78000000
  | .spTiming => 0x80000000
  | .spAlign => 0x88000000
  | .spFormat => 0x90000000
  | .spVersion => 0x98000000
  | .spDark => 0xA0000000
  | .spPlace n => 0xA8000000 ||| putField 0 12 n
  | .dpZigzag => 0xB0000000

/-- The opcode of a command (R93), by which its row is found. -/
def Instr.opcode : Instr → Nat
  | .gfExp _ => 0x01
  | .gfLog _ => 0x02
  | .gfMul _ _ => 0x03
  | .polyMul _ _ => 0x04
  | .polyMod _ _ => 0x05
  | .polyGen _ => 0x06
  | .rsInit _ => 0x07
  | .rsEnc _ => 0x08
  | .ilvBuild _ _ _ => 0x09
  | .matInit _ => 0x0A
  | .matSet _ _ _ _ => 0x0B
  | .matXor _ _ _ => 0x0C
  | .matGet _ _ => 0x0D
  | .spAcoord _ => 0x0E
  | .spFinder => 0x0F
  | .spTiming => 0x10
  | .spAlign => 0x11
  | .spFormat => 0x12
  | .spVersion => 0x13
  | .spDark => 0x14
  | .spPlace _ => 0x15
  | .dpZigzag => 0x16

end Sys2Proof
end

