-- ==== Sys2Proof/Machine/Sparse.lean ====
section
/-! DEFINITION. Sparse data by key: a list of key and value pairs with strictly rising keys. Memory and the module matrix
are kept so. -/

namespace Sys2Proof.Machine.Sparse

variable {α : Type}

/-- The value listed at a key. -/
def lookup : List (Nat × α) → Nat → Option α
  | [], _ => none
  | (k', v) :: rest, k => if k' = k then some v else lookup rest k

/-- List a value at a key, replacing the one there. -/
def insert (k : Nat) (v : α) : List (Nat × α) → List (Nat × α)
  | [] => [(k, v)]
  | (k', v') :: rest =>
    if k < k' then (k, v) :: (k', v') :: rest
    else if k' = k then (k, v) :: rest
    else (k', v') :: insert k v rest

/-- Unlist a key. -/
def erase (k : Nat) : List (Nat × α) → List (Nat × α)
  | [] => []
  | (k', v') :: rest => if k' = k then erase k rest else (k', v') :: erase k rest

/-- Every key is above `lo`, and the keys rise strictly. -/
def risingFrom : Option Nat → List (Nat × α) → Bool
  | _, [] => true
  | none, (k, _) :: rest => risingFrom (some k) rest
  | some lo, (k, _) :: rest => decide (lo < k) && risingFrom (some k) rest

/-- The keys rise strictly. -/
def rising (l : List (Nat × α)) : Bool := risingFrom none l

end Sys2Proof.Machine.Sparse
end

