-- ==== Sys2Proof/Config.lean ====
section
/-! DEFINITION. What the spec fixes for the engine (00_scope R7-R10, 10_state R22) and the one open value of its timing
(00_scope R12, 70_reset_and_hazards R360). -/

namespace Sys2Proof.Config

/-- Bytes in each polynomial buffer, and the longest polynomial (R7). -/
def polyCap : Nat := 256

/-- Bytes in each codeword buffer (R8). -/
def cwCap : Nat := 4096

/-- The largest matrix side (R9). -/
def matMax : Nat := 177

/-- The largest QR version (R10). -/
def vMax : Nat := 40

/-- The constant of the ID register (R22). -/
def idValue : Word := 0x51520107#32

/-- FREE VALUE (R12, R360: the open parameter LAT). `lat k` is how many host accesses come between the acceptance of the
`k`-th command and the engine step that performs it, if the host has that many to make. It is finite, as weak fairness
asks (R361), and nothing else is known of it. Log entry 2. -/
opaque lat : Nat → Nat

end Sys2Proof.Config
end

