-- ==== Sys2Proof/Machine/State.lean ====
section
/-! DEFINITION. The state of the engine and of its host as plain data (10_state R20-R55), its reset value
(70_reset_and_hazards R340), and the reasons a step can stop. -/

namespace Sys2Proof.Machine

/-- The six byte buffers (10_state R40). -/
inductive Buffer where
  | polyA
  | polyB
  | polyR
  | gen
  | cwIn
  | cwOut
  deriving DecidableEq, Repr

/-- The architectural causes a command can fault with (60_exceptions R302). -/
inductive Cause where
  | illegal
  | domain
  | notInit
  | range
  | length
  | geometry
  | layout
  deriving DecidableEq, Repr

/-- The model-only faults (60_exceptions R310): events whose hardware result is unspecified or lies outside the engine. -/
inductive ModelFault where
  /-- The host or a command read a byte of POLY_A, POLY_B, CW_IN or CW_OUT not written since reset (10_state R41). -/
  | uninitRead
  /-- The host made an access that is not allowed while BUSY = 1 (20_memory R72, 70_reset R351). -/
  | busyAccess
  /-- The host wrote CMD while BUSY = 1 (10_state R28, 70_reset R352). -/
  | cmdWhileBusy
  /-- The host accessed an unmapped address (20_memory R65, 60_exceptions R317). -/
  | busError
  deriving DecidableEq, Repr

/-- The engine phase (10_state R29). -/
inductive Phase where
  | idle
  | busy
  deriving DecidableEq, Repr

/-- One matrix cell: its module value (1 dark, 0 light) and its reserved flag (10_state R45). -/
structure Cell where
  dark : Bool
  reserved : Bool
  deriving DecidableEq, Repr

/-- The byte buffers, keyed by host-port word address (20_memory R61), in one canonical form: addresses strictly rising,
no entry equal to what an unlisted address reads as. Log entries 6 and 15. -/
abbrev Memory := List Host.Cell

/-- The module matrix (10_state R45), keyed by `cellKey row column`, in the same canonical form; an unlisted cell is light
and free. Log entry 16. -/
abbrev Grid := List (Nat × Cell)

/-- One action of the host agent (20_memory R62, 30_encoding R99, 70_reset R341, R363). -/
inductive HostOp where
  /-- `rd ADDR`: one MemRead. -/
  | rd (addr : Addr)
  /-- `wr ADDR, VALUE`: one MemWrite. -/
  | wr (addr : Addr) (w : Word)
  /-- `wait`: read STATUS until its bit 0 is 0. -/
  | wait
  /-- The reset input is asserted. -/
  | reset
  deriving DecidableEq, Repr

/-- Why a step stops with a fault. -/
inductive Fault where
  /-- Raised by `step` alone, in a state in which a model-only fault is recorded: no step of either agent is enabled there
  (60_exceptions R310). Safe: the model stops where the hardware's result is unspecified. -/
  | faulted (first : ModelFault)
  deriving DecidableEq, Repr

/-- Why a step is refused. -/
inductive Refusal where
  /-- Raised by an arm of `exec` whose command has no meaning yet; no arm of this model does. Safe. -/
  | notModelled (mnemonic : String)
  deriving DecidableEq, Repr

/-- The whole state (10_state R55) and, last, the model's own account of the host agent. -/
structure State where
  /-- STATUS.BUSY (R23); it is the engine phase (R29). -/
  busy : Bool
  /-- STATUS.DONE (R23). -/
  done : Bool
  /-- STATUS.ERR (R23). -/
  err : Bool
  /-- STATUS.OVR (R23). -/
  ovr : Bool
  /-- STATUS.RS_VALID (R23, R32). -/
  rsValid : Bool
  /-- CAUSE[7:0] (R25). -/
  cause : BitVec 8
  /-- INFO (R26). -/
  info : Word
  /-- CMD, the last accepted command word (R27). -/
  cmd : Word
  /-- RESULT (R30). -/
  result : Word
  /-- R_LEN[8:0] (R31). -/
  rLen : BitVec 9
  /-- RS_DEG[7:0] (R32). -/
  rsDeg : BitVec 8
  /-- CW_LEN[11:0] (R33). -/
  cwLen : BitVec 12
  /-- MAT_SIZE[7:0] (R34). -/
  matSize : BitVec 8
  /-- ALIGN_N[2:0] (R35). -/
  alignN : BitVec 3
  /-- ALIGN_C0..ALIGN_C6, [7:0] each (R35). -/
  alignC : Vector Byte 7
  /-- The six byte buffers (R40). -/
  mem : Memory
  /-- The module matrix, planes MOD and RES (R45). -/
  grid : Grid
  /-- The model-only faults recorded, oldest first (R55, 60_exceptions R310). -/
  faults : List ModelFault
  /-- MODEL'S OWN: the host's remaining actions, next first (70_reset R362). Log entry 1. -/
  script : List HostOp
  /-- MODEL'S OWN: the words the host's reads returned, oldest first (20_memory R62). Log entry 1. -/
  reads : List Word
  /-- MODEL'S OWN: how many host actions may still come before the engine step of the pending command. Log entry 2. -/
  lat : Nat
  /-- MODEL'S OWN: how many commands were accepted, the index of the free value `Config.lat`. Log entry 2. -/
  latIndex : Nat
  deriving DecidableEq, Repr

/-- The reset state (70_reset R340). The planes are all light and free, the spec's own example for an unspecified and unread
content (log entry 7); the host has nothing to do (log entry 8). -/
def State.reset : State where
  busy := false
  done := false
  err := false
  ovr := false
  rsValid := false
  cause := 0
  info := 0
  cmd := 0
  result := 0
  rLen := 0
  rsDeg := 0
  cwLen := 0
  matSize := 0
  alignN := 0
  alignC := Vector.replicate 7 0
  mem := []
  grid := []
  faults := []
  script := []
  reads := []
  lat := 0
  latIndex := 0

/-- What a command or a step answers. -/
abbrev Result := Host.Outcome State Fault Refusal

end Sys2Proof.Machine
end

