-- ==== Sys2Proof/Machine/Ops.lean ====
section
/-! DEFINITION. The named operations over the byte buffers, the module matrix and the command's outcome: reading and writing
buffer bytes (10_state R40-R42, 20_memory R61), reading and writing cells (10_state R45), and how a command ends
(60_exceptions R300, R305, R310). -/

namespace Sys2Proof.Machine

/-! ### Byte buffers -/

/-- The word address of a buffer's byte 0 (20_memory R61). -/
def Buffer.base : Buffer → Nat
  | .polyA => 0x1000
  | .polyB => 0x1100
  | .polyR => 0x1200
  | .gen => 0x1300
  | .cwIn => 0x2000
  | .cwOut => 0x3000

/-- How many bytes a buffer holds (10_state R40, 00_scope R7, R8). -/
def Buffer.size : Buffer → Nat
  | .polyA => Config.polyCap
  | .polyB => Config.polyCap
  | .polyR => Config.polyCap
  | .gen => Config.polyCap
  | .cwIn => Config.cwCap
  | .cwOut => Config.cwCap

/-- Whether the host may write the buffer; a write to another is ignored (10_state R40, 20_memory R64). -/
def Buffer.hostWritable : Buffer → Bool
  | .polyA => true
  | .polyB => true
  | .polyR => false
  | .gen => false
  | .cwIn => true
  | .cwOut => true

/-- The buffer and index a word address reaches (20_memory R61). -/
def bufferAt (a : Nat) : Option (Buffer × Nat) :=
  if 0x1000 ≤ a ∧ a < 0x1100 then some (.polyA, a - 0x1000)
  else if 0x1100 ≤ a ∧ a < 0x1200 then some (.polyB, a - 0x1100)
  else if 0x1200 ≤ a ∧ a < 0x1300 then some (.polyR, a - 0x1200)
  else if 0x1300 ≤ a ∧ a < 0x1400 then some (.gen, a - 0x1300)
  else if 0x2000 ≤ a ∧ a < 0x3000 then some (.cwIn, a - 0x2000)
  else if 0x3000 ≤ a ∧ a < 0x4000 then some (.cwOut, a - 0x3000)
  else none

/-- What an unlisted address reads as (10_state R41): 0 in POLY_R and GEN, which reset clears; no value elsewhere, so that
reading a byte nothing has written is the model-only fault UNINIT_READ. Log entry 6. -/
def Memory.unlisted (a : Nat) : Option Byte :=
  if 0x1200 ≤ a ∧ a < 0x1400 then some 0 else none

/-- The byte at a word address, or none if it has no value (10_state R41). -/
def Memory.read (m : Memory) (a : Nat) : Option Byte :=
  match Sparse.lookup m a with
  | some b => some b
  | none => Memory.unlisted a

/-- Store a byte, keeping the canonical form. -/
def Memory.write (m : Memory) (a : Nat) (b : Byte) : Memory :=
  if Memory.unlisted a = some b then Sparse.erase a m else Sparse.insert a b m

/-- The list of the `n` bytes from address `a` up, or none if one of them has no value. -/
def Memory.readRange (m : Memory) (a : Nat) : Nat → Option (List Byte)
  | 0 => some []
  | n + 1 =>
    match Memory.read m a, Memory.readRange m (a + 1) n with
    | some b, some bs => some (b :: bs)
    | _, _ => none

/-- Store a list of bytes from address `a` up. -/
def Memory.writeRange (m : Memory) (a : Nat) : List Byte → Memory
  | [] => m
  | b :: bs => Memory.write (Memory.writeRange m (a + 1) bs) a b

/-- The list cut or filled with zeros to exactly `n` bytes. -/
def padTo (n : Nat) (bs : List Byte) : List Byte := bs.take n ++ List.replicate (n - bs.length) 0

/-- The canonical form: addresses rise strictly, each is a buffer byte's, and no entry equals what its address reads as
unlisted. -/
def Memory.wf (m : Memory) : Bool :=
  Sparse.rising m && m.all (fun e => (bufferAt e.1).isSome && Memory.unlisted e.1 != some e.2)

/-! ### Module matrix -/

/-- A cell's key. Rows and columns are below 177 (10_state R45), so keys of distinct cells differ. -/
def cellKey (r c : Nat) : Nat := 256 * r + c

/-- The cell at row `r`, column `c` (10_state R45). -/
def Grid.cell (g : Grid) (r c : Nat) : Cell := (Sparse.lookup g (cellKey r c)).getD ⟨false, false⟩

/-- Put a cell, keeping the canonical form. -/
def Grid.put (g : Grid) (r c : Nat) (x : Cell) : Grid :=
  if x = ⟨false, false⟩ then Sparse.erase (cellKey r c) g else Sparse.insert (cellKey r c) x g

/-- MOD[r][c] <- v; the reserved flag stays (43_bit_matrix R185, 45_data_placer R242). -/
def Grid.setModule (g : Grid) (r c : Nat) (v : Bool) : Grid :=
  g.put r c { g.cell r c with dark := v }

/-- `place(r, c, v)`: MOD[r][c] <- v and RES[r][c] <- 1 (44_structural_placer, preamble). -/
def Grid.place (g : Grid) (r c : Nat) (v : Bool) : Grid := g.put r c ⟨v, true⟩

/-- The canonical form: keys rise strictly, each is a cell's of the two 177 x 177 planes, and no listed cell is light and
free. -/
def Grid.wf (g : Grid) : Bool :=
  Sparse.rising g && g.all (fun e =>
    decide (e.1 / 256 < Config.matMax) && decide (e.1 % 256 < Config.matMax) && e.2 != ⟨false, false⟩)

/-! ### How a command ends -/

/-- The code of a cause (60_exceptions R302). -/
def Cause.code : Cause → BitVec 8
  | .illegal => 1
  | .domain => 2
  | .notInit => 3
  | .range => 4
  | .length => 5
  | .geometry => 6
  | .layout => 7

/-- The INFO word: the sub-code in bits [31:24], the detail in bits [23:0] (60_exceptions R303). -/
def infoWord (sub detail : Nat) : Word :=
  (BitVec.ofNat 8 sub).setWidth 32 <<< 24 ||| (BitVec.ofNat 24 detail).setWidth 32

/-- Fault entry (60_exceptions R305): ERR, CAUSE and INFO, and nothing else. -/
def State.faultEntry (s : State) (cause : Cause) (sub detail : Nat) : State :=
  { s with err := true, cause := cause.code, info := infoWord sub detail }

/-- Clearing a fault, the return to normal (60_exceptions R306, 10_state R24): ERR, CAUSE and INFO become 0. -/
def State.clearFault (s : State) : State :=
  { s with err := false, cause := 0, info := 0 }

/-- The end of an engine step: BUSY <- 0 (60_exceptions R300). -/
def State.endCommand (s : State) : State := { s with busy := false }

/-- A command completed: DONE <- 1, then BUSY <- 0 (60_exceptions R300). -/
def State.complete (s : State) : State := { s with done := true, busy := false }

/-- Record a model-only fault (60_exceptions R310). -/
def State.record (s : State) (f : ModelFault) : State := { s with faults := s.faults ++ [f] }

/-- `raise Fault(CAUSE, info)` (00_scope R16, 60_exceptions R300, R301, R305): none of the command's writes happen, the fault
is recorded, BUSY is cleared. -/
def raise (s : State) (cause : Cause) (sub detail : Nat) : Result :=
  .next (s.faultEntry cause sub detail).endCommand

/-- All of a command's writes are committed and it completes (60_exceptions R300). -/
def finish (s : State) : Result := .next s.complete

/-- A command read a byte that has no value: the step records UNINIT_READ and has no other effect (60_exceptions R310).
Log entry 10. -/
def uninit (s : State) : Result := .next (s.record .uninitRead)

/-! ### What commands write -/

/-- RESULT <- w (10_state R30). -/
def State.withResult (s : State) (w : Word) : State := { s with result := w }

/-- POLY_R <- the list, zeros above it; R_LEN <- its length (10_state R42). -/
def State.withPolyR (s : State) (r : List Byte) : State :=
  { s with mem := s.mem.writeRange Buffer.polyR.base (padTo Config.polyCap r), rLen := BitVec.ofNat 9 r.length }

/-- The RS encoder state for degree `n` and generator `g` (42_reed_solomon R161): GEN <- g, zeros above it; RS_DEG <- n;
RS_VALID <- 1. -/
def State.withRs (s : State) (n : Nat) (g : List Byte) : State :=
  { s with mem := s.mem.writeRange Buffer.gen.base (padTo Config.polyCap g), rsDeg := BitVec.ofNat 8 n, rsValid := true }

/-- CW_OUT[0..T) <- the stream; CW_LEN <- T (46_interleaver R265). -/
def State.withStream (s : State) (out : List Byte) : State :=
  { s with mem := s.mem.writeRange Buffer.cwOut.base out, cwLen := BitVec.ofNat 12 out.length }

/-- The module matrix's cells change, its side stays. -/
def State.withGrid (s : State) (g : Grid) : State := { s with grid := g }

/-- A new matrix of side `n` (43_bit_matrix R183): both planes cleared, MAT_SIZE <- n. -/
def State.withNewMatrix (s : State) (n : Nat) : State := { s with grid := [], matSize := BitVec.ofNat 8 n }

/-- ALIGN_N and ALIGN_C0..ALIGN_C6 (44_structural_placer R213); an entry beyond the list is 0. -/
def State.withAlign (s : State) (co : List Nat) : State :=
  { s with
    alignN := BitVec.ofNat 3 co.length
    alignC := Vector.ofFn (fun k : Fin 7 => BitVec.ofNat 8 (co.getD k.val 0)) }

end Sys2Proof.Machine
end

