-- ==== Sys2Proof/Machine/Operands.lean ====
section
/-! DEFINITION. The operand forms of the commands: a number of its field (30_encoding R92), a run of a buffer's bytes from
index 0 (00_scope R15), the GEN polynomial, a matrix cell (43_bit_matrix R180), the current matrix (R181) and its version
(44_structural_placer R200). -/

namespace Sys2Proof.Machine

/-- `X[0..n)`: the first `n` bytes of a buffer, or none if one has no value (00_scope R15, 10_state R41). -/
def State.bytes (s : State) (b : Buffer) (n : Nat) : Option (List Byte) := s.mem.readRange b.base n

/-- `X[0]`, or none if it has no value. -/
def State.firstByte (s : State) (b : Buffer) : Option Byte := s.mem.read b.base

/-- The side of the current matrix, `csr[MAT_SIZE]`. -/
def State.side (s : State) : Nat := s.matSize.toNat

/-- MOD[r][c] and RES[r][c] (00_scope R15). -/
def State.cell (s : State) (r c : Nat) : Cell := s.grid.cell r c

/-- `check_cell(r, c)` (43_bit_matrix R180), then `k`. -/
def withCell (s : State) (r c : Nat) (k : Result) : Result :=
  if s.side = 0 then raise s .range 2 0
  else if s.side ≤ r ∨ s.side ≤ c then raise s .range 3 (256 * r + c)
  else k

/-- `need_matrix()` (43_bit_matrix R181), then `k` on the side. -/
def withMatrix (s : State) (k : Nat → Result) : Result :=
  if s.side = 0 then raise s .range 2 0 else k s.side

/-- `size(V)` (00_scope R10). -/
def symbolSize (v : Nat) : Nat := 4 * v + 17

/-- `sp_version()` (44_structural_placer R200), then `k` on the version. -/
def withVersion (s : State) (k : Nat → Result) : Result :=
  withMatrix s fun side =>
    if side < 21 ∨ (side - 17) % 4 ≠ 0 then raise s .geometry 1 side else k ((side - 17) / 4)

end Sys2Proof.Machine
end

