-- ==== Sys2Proof/Machine/Matrix.lean ====
section
/-! DEFINITION. The module-matrix commands MAT.INIT, MAT.SET, MAT.XOR and MAT.GET (43_bit_matrix R183-R186). -/

namespace Sys2Proof.Machine

/-- MAT.INIT (R183). -/
def execMatInit (n : Nat) (s : State) : Result :=
  if n = 0 ∨ Config.matMax < n then raise s .range 1 n
  else finish (s.withNewMatrix n)

/-- MAT.SET (R184): with `sr` false the cell's reserved flag stays as it was. -/
def execMatSet (r c : Nat) (v sr : Bool) (s : State) : Result :=
  withCell s r c (finish (s.withGrid (if sr then s.grid.place r c v else s.grid.setModule r c v)))

/-- MAT.XOR (R185): the reserved flag is neither tested nor changed. -/
def execMatXor (r c : Nat) (v : Bool) (s : State) : Result :=
  withCell s r c (finish (s.withGrid (s.grid.setModule r c ((s.cell r c).dark ^^ v))))

/-- The value of a cell as MAT.GET reports it, `(RES << 1) | MOD` (R186). -/
def Cell.value (x : Cell) : Word :=
  (BitVec.ofBool x.reserved).setWidth 32 <<< 1 ||| (BitVec.ofBool x.dark).setWidth 32

/-- MAT.GET (R186). -/
def execMatGet (r c : Nat) (s : State) : Result :=
  withCell s r c (finish (s.withResult (s.cell r c).value))

end Sys2Proof.Machine
end

