-- ==== Sys2Proof/Machine/DataPlacer.lean ====
section
/-! DEFINITION. The zigzag data placer: the bit stream and the order of 45_data_placer R240, R241 and the command DP.ZIGZAG. -/

namespace Sys2Proof.Machine

/-- `stream_bit(k)` of a codeword list: most significant bit of each codeword first, light after the last (R240). -/
def streamBit (cw : List Byte) (k : Nat) : Bool := (cw.getD (k / 8) 0).getLsbD (7 - k % 8)

/-- The positions the walk of R241 visits in a matrix of side `s`, reserved or not, from column `col` on: strips of two
columns, the right column of a row before the left, rows upward and downward in turn, column 6 skipped. Every strip goes two
columns further left, so `s` strips are fuel enough. Log entry 17. -/
def walkFrom (s : Nat) : Nat → Nat → Bool → List (Nat × Nat)
  | 0, _, _ => []
  | fuel + 1, col, up =>
    if col = 0 then []
    else
      let c := if col = 6 then 5 else col
      let rows := if up then (List.range s).reverse else List.range s
      rows.flatMap (fun r => [(r, c), (r, c - 1)]) ++ walkFrom s fuel (c - 2) (!up)

/-- The whole walk: from the bottom-right corner, upward first (R241). -/
def walk (s : Nat) : List (Nat × Nat) := walkFrom s s (s - 1) true

/-- `zigzag(s)` (R241): the walk's free cells, in visit order. -/
def zigzag (g : Grid) (s : Nat) : List (Nat × Nat) := (walk s).filter fun p => !(g.cell p.1 p.2).reserved

/-- Write bits `k`, `k + 1`, … of the stream into the cells, in order (R242). -/
def placeBits (g : Grid) (cw : List Byte) (k : Nat) : List (Nat × Nat) → Grid
  | [] => g
  | p :: ps => placeBits (g.setModule p.1 p.2 (streamBit cw k)) cw (k + 1) ps

/-- DP.ZIGZAG (R242). -/
def execDpZigzag (s : State) : Result :=
  withMatrix s fun side =>
    let cells := zigzag s.grid side
    let L := s.cwLen.toNat
    if cells.length < 8 * L then raise s .length 5 L
    else
      match s.bytes .cwOut L with
      | none => uninit s
      | some cw => finish (s.withGrid (placeBits s.grid cw 0 cells))

end Sys2Proof.Machine
end

