-- ==== Sys2Proof/Machine/Polynomial.lean ====
section
/-! DEFINITION. Polynomials over GF(256), lists of bytes with the highest degree first (00_scope R14): the functions of
41_polynomial R140, R143 and R146 and the commands POLY.MUL, POLY.MOD and POLY.GEN. -/

namespace Sys2Proof.Machine

/-- `zeros(n)` (00_scope R14). -/
def zeros (n : Nat) : List Byte := List.replicate n 0

/-- `strip(p)`: every leading 0 coefficient removed (00_scope R14). -/
def strip : List Byte → List Byte
  | [] => []
  | c :: p => if c = 0 then strip p else c :: p

/-- XOR of the first list into the front of the second: `r[i] <- r[i] XOR p[i]` for each i below both lengths. -/
def xorInto : List Byte → List Byte → List Byte
  | [], r => r
  | _, [] => []
  | x :: p, y :: r => (x ^^^ y) :: xorInto p r

/-- Every coefficient multiplied by `c`. -/
def scale (c : Byte) (p : List Byte) : List Byte := p.map (fun x => gfmul x c)

/-- `polymul(p, q)` for non-empty p and q (R140), one coefficient of p at a time: `p[0]` adds `gfmul(p[0], q[j])` into
coefficients 0 to `len(q) - 1`, the rest of p does the same one place further on. The length is `len(p) + len(q) - 1`
and leading zeros stay. -/
def polymul : List Byte → List Byte → List Byte
  | [], q => zeros (q.length - 1)
  | x :: p, q => xorInto (scale x q) (0 :: polymul p q)

/-- The division loop of R143: while the remaining length is not below the divisor's, XOR the divisor times the leading
coefficient into the front and strip. Each turn shortens a remainder of a monic division (R145), so the dividend's length is
fuel enough. -/
def divideLoop : Nat → List Byte → List Byte → List Byte
  | 0, r, _ => r
  | fuel + 1, r, d =>
    if d.length ≤ r.length then divideLoop fuel (strip (xorInto (scale (r.headD 0) d) r)) d else r

/-- `polymod(a, d)` for a divisor with leading coefficient 1 (R143). -/
def polymod (a d : List Byte) : List Byte := strip (divideLoop a.length a d)

/-- `polygen(n)` (R146). -/
def polygen : Nat → List Byte
  | 0 => [1]
  | i + 1 => polymul (polygen i) [1, gfexp i]

/-- POLY.MUL (R141). -/
def execPolyMul (p q : Nat) (s : State) : Result :=
  if p = 0 ∨ Config.polyCap < p then raise s .length 1 p
  else if q = 0 ∨ Config.polyCap < q then raise s .length 2 q
  else if Config.polyCap < p + q - 1 then raise s .length 3 (p + q - 1)
  else
    match s.bytes .polyA p, s.bytes .polyB q with
    | some a, some b => finish (s.withPolyR (polymul a b))
    | _, _ => uninit s

/-- POLY.MOD (R144). -/
def execPolyMod (p q : Nat) (s : State) : Result :=
  if Config.polyCap < p then raise s .length 1 p
  else if q = 0 ∨ Config.polyCap < q then raise s .length 2 q
  else
    match s.firstByte .polyB with
    | none => uninit s
    | some lead =>
      if lead ≠ 1 then raise s .domain 2 lead.toNat
      else
        match s.bytes .polyA p, s.bytes .polyB q with
        | some a, some d => finish (s.withPolyR (polymod a d))
        | _, _ => uninit s

/-- POLY.GEN (R147). -/
def execPolyGen (n : Nat) (s : State) : Result :=
  if 255 < n then raise s .length 4 n
  else finish (s.withPolyR (polygen n))

end Sys2Proof.Machine
end

