-- ==== Sys2Proof/Machine/ReedSolomon.lean ====
section
/-! DEFINITION. The Reed-Solomon encoder: the function of 42_reed_solomon R163 and the commands RS.INIT and RS.ENC over the
state RS_VALID, RS_DEG, GEN (R160, 10_state R43). -/

namespace Sys2Proof.Machine

/-- `rsenc(data, g)` (R163): the remainder of the data padded with `len(g) - 1` zeros, padded on the left to that length. -/
def rsenc (data g : List Byte) : List Byte :=
  let n := g.length - 1
  let r := polymod (data ++ zeros n) g
  zeros (n - r.length) ++ r

/-- RS.INIT (R161, R162). -/
def execRsInit (n : Nat) (s : State) : Result :=
  if 255 < n then raise s .length 4 n
  else finish (s.withRs n (polygen n))

/-- RS.ENC (R164). -/
def execRsEnc (n : Nat) (s : State) : Result :=
  if s.rsValid = false then raise s .notInit 0 0
  else if Config.polyCap < n then raise s .length 1 n
  else
    match s.bytes .polyA n, s.bytes .gen (s.rsDeg.toNat + 1) with
    | some data, some g => finish (s.withPolyR (rsenc data g))
    | _, _ => uninit s

end Sys2Proof.Machine
end

