-- ==== Sys2Proof/Machine/Interleaver.lean ====
section
/-! DEFINITION. Block split, error correction and interleave: 46_interleaver R260-R264 and the command ILV.BUILD. -/

namespace Sys2Proof.Machine

/-- The numbers of R260. -/
structure Layout where
  /-- Data codewords in all. -/
  D : Nat
  /-- Data codewords in a block of group 1; a block of group 2 has one more. -/
  d1 : Nat
  /-- Blocks in group 1. -/
  g1 : Nat
  /-- Blocks in group 2. -/
  g2 : Nat
  deriving DecidableEq, Repr

/-- `layout(B, e, T)`, for B at least 1 and B*e at most T (R260). -/
def layout (B e T : Nat) : Layout :=
  let D := T - B * e
  { D := D, d1 := D / B, g1 := B - D % B, g2 := D % B }

/-- The blocks' data lengths: group 1 first (R260, R262). -/
def Layout.lengths (l : Layout) : List Nat := List.replicate l.g1 l.d1 ++ List.replicate l.g2 (l.d1 + 1)

/-- `split`: runs of the given lengths, taken in order (R262). -/
def splitRuns : List Nat → List Byte → List (List Byte)
  | [], _ => []
  | n :: ns, data => data.take n :: splitRuns ns (data.drop n)

/-- Columns 0 to `n - 1` across the blocks, a block that has run out skipped (R264). -/
def columns (n : Nat) (blocks : List (List Byte)) : List Byte :=
  (List.range n).flatMap fun i => blocks.filterMap fun b => b[i]?

/-- `interleave` (R264): the data columns, `d1 + 1` of them, then the `e` EC columns. -/
def interleave (d1 e : Nat) (data ec : List (List Byte)) : List Byte :=
  columns (d1 + 1) data ++ columns e ec

/-- The whole stream of ILV.BUILD from the data codewords (R262-R264). -/
def buildStream (B e T : Nat) (data : List Byte) : List Byte :=
  let l := layout B e T
  let blocks := splitRuns l.lengths data
  interleave l.d1 e blocks (blocks.map fun b => rsenc b (polygen e))

/-- ILV.BUILD (R265). -/
def execIlvBuild (B e T : Nat) (s : State) : Result :=
  if B = 0 then raise s .layout 1 0
  else if T < B * e then raise s .layout 2 (B * e)
  else
    match s.bytes .cwIn (layout B e T).D with
    | none => uninit s
    | some data => finish ((s.withStream (buildStream B e T data)).withRs e (polygen e))

end Sys2Proof.Machine
end

