-- ==== Sys2Proof/Machine/StructuralPlacer.lean ====
section
/-! DEFINITION. The structural-pattern placer: the cells of 44_structural_placer R201-R214 and the commands SP.ACOORD,
SP.FINDER, SP.TIMING, SP.ALIGN, SP.FORMAT, SP.VERSION, SP.DARK and SP.PLACE. Each structure is the list of its placements,
in the order of its rule. -/

namespace Sys2Proof.Machine

/-- One `place(r, c, v)`. -/
structure Placement where
  row : Nat
  col : Nat
  dark : Bool
  deriving DecidableEq, Repr

/-- Perform placements in order (44_structural_placer, preamble). -/
def Grid.placeAll (g : Grid) (ps : List Placement) : Grid :=
  ps.foldl (fun g p => g.place p.row p.col p.dark) g

/-! ### Finder patterns (R201) -/

/-- Whether the offset (r, c) of a finder pattern's area is dark (R201). -/
def finderDark (r c : Int) : Bool :=
  (0 ≤ r && r ≤ 6 && (c == 0 || c == 6)) ||
  (0 ≤ c && c ≤ 6 && (r == 0 || r == 6)) ||
  (2 ≤ r && r ≤ 4 && 2 ≤ c && c ≤ 4)

/-- The offsets -1 to 7 of R201. -/
def finderOffsets : List Int := [-1, 0, 1, 2, 3, 4, 5, 6, 7]

/-- One finder pattern with its separator ring, clipped to the matrix of side `s` (R201). -/
def finderAt (s : Nat) (r0 c0 : Int) : List Placement :=
  finderOffsets.flatMap fun r =>
    if r0 + r < 0 ∨ (s : Int) ≤ r0 + r then []
    else finderOffsets.flatMap fun c =>
      if c0 + c < 0 ∨ (s : Int) ≤ c0 + c then []
      else [⟨(r0 + r).toNat, (c0 + c).toNat, finderDark r c⟩]

/-- `finder_cells(s)` (R201). -/
def finderCells (s : Nat) : List Placement :=
  finderAt s 0 0 ++ finderAt s (s - 7) 0 ++ finderAt s 0 (s - 7)

/-! ### Timing patterns (R203) -/

/-- `timing_cells(s)` (R203): for i from 8 to s - 9. -/
def timingCells (s : Nat) : List Placement :=
  (List.range (s - 16)).flatMap fun k =>
    let i := k + 8
    [⟨i, 6, i % 2 == 0⟩, ⟨6, i, i % 2 == 0⟩]

/-! ### Alignment patterns (R205-R207) -/

/-- The spacing of the alignment coordinates for `n` of them in a symbol of side `s` (R205). -/
def alignStep (s n : Nat) : Nat :=
  if s = 145 then 26 else 2 * ((s - 13 + (2 * n - 2) - 1) / (2 * n - 2))

/-- `acoords(V)` (R205): ascending, first 6, last s - 7, the others `step` apart from the last one down. -/
def acoords (v : Nat) : List Nat :=
  if v = 1 then []
  else
    let n := v / 7 + 2
    let s := symbolSize v
    6 :: ((List.range (n - 1)).map fun i => s - 7 - i * alignStep s n).reverse

/-- `apositions(V)` (R206): every pair of coordinates but the three that fall on the finder patterns. -/
def apositions (v : Nat) : List (Nat × Nat) :=
  let co := acoords v
  let n := co.length
  (List.range n).flatMap fun i =>
    (List.range n).flatMap fun j =>
      if (i = 0 ∧ j = 0) ∨ (i = 0 ∧ j = n - 1) ∨ (i = n - 1 ∧ j = 0) then []
      else [(co.getD i 0, co.getD j 0)]

/-- The offsets -2 to 2 of R207. -/
def alignOffsets : List Int := [-2, -1, 0, 1, 2]

/-- `align_cells(r0, c0)` (R207). -/
def alignCells (r0 c0 : Nat) : List Placement :=
  alignOffsets.flatMap fun r => alignOffsets.map fun c =>
    ⟨((r0 : Int) + r).toNat, ((c0 : Int) + c).toNat,
      r == -2 || r == 2 || c == -2 || c == 2 || (r == 0 && c == 0)⟩

/-- Every alignment pattern of version `v` (R208). -/
def alignAll (v : Nat) : List Placement := (apositions v).flatMap fun p => alignCells p.1 p.2

/-! ### Format and version areas, dark module (R209, R211, R214) -/

/-- F1(i) (R209). -/
def formatCell1 (s i : Nat) : Nat × Nat :=
  if i < 6 then (i, 8) else if i < 8 then (i + 1, 8) else (s - 15 + i, 8)

/-- F2(i) (R209). -/
def formatCell2 (s i : Nat) : Nat × Nat :=
  if i < 8 then (8, s - 1 - i) else if i = 8 then (8, 7) else (8, 14 - i)

/-- The 30 format-information cells, light (R209, R210). -/
def formatCells (s : Nat) : List Placement :=
  (List.range 15).flatMap fun i =>
    [⟨(formatCell1 s i).1, (formatCell1 s i).2, false⟩, ⟨(formatCell2 s i).1, (formatCell2 s i).2, false⟩]

/-- V1(i) (R211); V2(i) is its transpose. -/
def versionCell1 (s i : Nat) : Nat × Nat := (i / 3, s - 11 + i % 3)

/-- The 36 version-information cells, light, when the version is at least 7; none below (R211, R212). -/
def versionCells (v s : Nat) : List Placement :=
  if 7 ≤ v then
    (List.range 18).flatMap fun i =>
      [⟨(versionCell1 s i).1, (versionCell1 s i).2, false⟩, ⟨(versionCell1 s i).2, (versionCell1 s i).1, false⟩]
  else []

/-- The dark module (R214). -/
def darkCells (s : Nat) : List Placement := [⟨s - 8, 8, true⟩]

/-- The whole structure of version `v`, in the order of R216. -/
def structureCells (v : Nat) : List Placement :=
  let s := symbolSize v
  finderCells s ++ timingCells s ++ alignAll v ++ formatCells s ++ versionCells v s ++ darkCells s

/-! ### Commands -/

/-- Place a structure of the current matrix's version, which the geometry check of R200 gives. -/
def placeStructure (s : State) (cells : Nat → List Placement) : Result :=
  withVersion s fun v => finish (s.withGrid (s.grid.placeAll (cells v)))

/-- SP.ACOORD (R213). -/
def execSpAcoord (n : Nat) (s : State) : Result :=
  if n < 1 ∨ Config.vMax < n then raise s .geometry 2 n
  else finish (s.withAlign (acoords n))

/-- SP.FINDER (R202). -/
def execSpFinder (s : State) : Result := placeStructure s fun _ => finderCells s.side

/-- SP.TIMING (R204). -/
def execSpTiming (s : State) : Result := placeStructure s fun _ => timingCells s.side

/-- SP.ALIGN (R208). -/
def execSpAlign (s : State) : Result := placeStructure s alignAll

/-- SP.FORMAT (R210). -/
def execSpFormat (s : State) : Result := placeStructure s fun _ => formatCells s.side

/-- SP.VERSION (R212). -/
def execSpVersion (s : State) : Result := placeStructure s fun v => versionCells v s.side

/-- SP.DARK (R215). -/
def execSpDark (s : State) : Result := placeStructure s fun _ => darkCells s.side

/-- SP.PLACE (R216). -/
def execSpPlace (n : Nat) (s : State) : Result :=
  if n < 1 ∨ Config.vMax < n then raise s .geometry 2 n
  else
    let s1 := s.withNewMatrix (symbolSize n)
    finish (s1.withGrid (s1.grid.placeAll (structureCells n)))

end Sys2Proof.Machine
end

