-- ==== Sys2Proof/Machine/Dispatch.lean ====
section
/-! DEFINITION. One arm per command (30_encoding R93): what the engine step that performs it answers (60_exceptions R300). -/

namespace Sys2Proof.Machine

def exec (i : Instr) (s : State) : Host.Outcome State Fault Refusal :=
  match i with
  | .gfExp a => Sys2Proof.Machine.execGfExp a s
  | .gfLog a => Sys2Proof.Machine.execGfLog a s
  | .gfMul a b => Sys2Proof.Machine.execGfMul a b s
  | .polyMul p q => Sys2Proof.Machine.execPolyMul p q s
  | .polyMod p q => Sys2Proof.Machine.execPolyMod p q s
  | .polyGen n => Sys2Proof.Machine.execPolyGen n s
  | .rsInit n => Sys2Proof.Machine.execRsInit n s
  | .rsEnc n => Sys2Proof.Machine.execRsEnc n s
  | .ilvBuild B e T => Sys2Proof.Machine.execIlvBuild B e T s
  | .matInit n => Sys2Proof.Machine.execMatInit n s
  | .matSet r c v sr => Sys2Proof.Machine.execMatSet r c v sr s
  | .matXor r c v => Sys2Proof.Machine.execMatXor r c v s
  | .matGet r c => Sys2Proof.Machine.execMatGet r c s
  | .spAcoord n => Sys2Proof.Machine.execSpAcoord n s
  | .spFinder => Sys2Proof.Machine.execSpFinder s
  | .spTiming => Sys2Proof.Machine.execSpTiming s
  | .spAlign => Sys2Proof.Machine.execSpAlign s
  | .spFormat => Sys2Proof.Machine.execSpFormat s
  | .spVersion => Sys2Proof.Machine.execSpVersion s
  | .spDark => Sys2Proof.Machine.execSpDark s
  | .spPlace n => Sys2Proof.Machine.execSpPlace n s
  | .dpZigzag => Sys2Proof.Machine.execDpZigzag s

end Sys2Proof.Machine
end

