-- ==== Sys2Proof/Machine/Flags.lean ====
section
/-! DEFINITION. The flags of the engine: the STATUS bits (10_state R23, R37), the engine phase (R29), the STATUS word a read
returns, and the write-one-to-clear of a STATUS write (R24). The engine has no arithmetic condition codes (R37). -/

namespace Sys2Proof.Machine

/-- The engine phase is STATUS.BUSY (10_state R29). -/
def State.phase (s : State) : Phase := if s.busy then .busy else .idle

/-- A STATUS bit at its place. -/
def flagBit (lo : Nat) (b : Bool) : Word := (BitVec.ofBool b).setWidth 32 <<< lo

/-- The word a read of STATUS returns (10_state R23). -/
def State.statusWord (s : State) : Word :=
  flagBit 0 s.busy ||| flagBit 1 s.done ||| flagBit 2 s.err ||| flagBit 3 s.ovr ||| flagBit 4 s.rsValid

/-- A host write of `w` to STATUS (10_state R24): a 1 in bit 1, 2 or 3 clears DONE, ERR (with CAUSE and INFO) or OVR. -/
def State.writeStatus (s : State) (w : Word) : State :=
  let s1 := if w.getLsbD 1 then { s with done := false } else s
  let s2 := if w.getLsbD 2 then s1.clearFault else s1
  if w.getLsbD 3 then { s2 with ovr := false } else s2

end Sys2Proof.Machine
end

