-- ==== Sys2Proof/Machine/HostPort.lean ====
section
/-! DEFINITION. The host agent: the address map of the host port (20_memory R61), MemRead and MemWrite with their hazards
(R62-R65, R72; 10_state R22-R36; 60_exceptions R310), the wait loop (30_encoding R99), the reset input (70_reset R341), and the
turn of the host in its script. -/

namespace Sys2Proof.Machine

/-- The control and status registers (10_state, section 2). -/
inductive Csr where
  | id
  | status
  | cause
  | info
  | cmd
  | result
  | rLen
  | rsDeg
  | cwLen
  | matSize
  | alignN
  | alignC (k : Fin 7)
  deriving DecidableEq, Repr

/-- What a word address reaches (20_memory R61). -/
inductive Target where
  | csr (r : Csr)
  | byte (b : Buffer) (i : Nat)
  | unmapped
  deriving DecidableEq, Repr

/-- The register at a word address (10_state, section 2; 20_memory R61). -/
def csrAt (a : Nat) : Option Csr :=
  match a with
  | 0x00 => some .id
  | 0x01 => some .status
  | 0x02 => some .cause
  | 0x03 => some .info
  | 0x04 => some .cmd
  | 0x05 => some .result
  | 0x06 => some .rLen
  | 0x07 => some .rsDeg
  | 0x08 => some .cwLen
  | 0x09 => some .matSize
  | 0x0A => some .alignN
  | 0x10 => some (.alignC 0)
  | 0x11 => some (.alignC 1)
  | 0x12 => some (.alignC 2)
  | 0x13 => some (.alignC 3)
  | 0x14 => some (.alignC 4)
  | 0x15 => some (.alignC 5)
  | 0x16 => some (.alignC 6)
  | _ => none

/-- The address map (20_memory R61): every address not listed is unmapped. -/
def target (addr : Addr) : Target :=
  match csrAt addr.toNat with
  | some r => .csr r
  | none =>
    match bufferAt addr.toNat with
    | some (b, i) => .byte b i
    | none => .unmapped

/-- The word a read of a register returns; unlisted bits read 0 (10_state R22-R35). -/
def State.readCsr (s : State) : Csr → Word
  | .id => Config.idValue
  | .status => s.statusWord
  | .cause => s.cause.setWidth 32
  | .info => s.info
  | .cmd => s.cmd
  | .result => s.result
  | .rLen => s.rLen.setWidth 32
  | .rsDeg => s.rsDeg.setWidth 32
  | .cwLen => s.cwLen.setWidth 32
  | .matSize => s.matSize.setWidth 32
  | .alignN => s.alignN.setWidth 32
  | .alignC k => (s.alignC[k]).setWidth 32

/-- The registers the host may read while BUSY = 1 (20_memory R72, 70_reset R350). -/
def Csr.readableWhileBusy : Csr → Bool
  | .id => true
  | .status => true
  | .cause => true
  | .info => true
  | .cmd => true
  | .result => false
  | .rLen => false
  | .rsDeg => false
  | .cwLen => false
  | .matSize => false
  | .alignN => false
  | .alignC _ => false

/-- What a MemRead answers: the word, or the model-only fault it is. -/
inductive ReadAnswer where
  | data (w : Word)
  | modelFault (f : ModelFault)
  deriving DecidableEq, Repr

/-- MemRead (20_memory R62, R63, R65, R68, R72): it changes no state; the answer alone matters. Log entry 5 says which fault
an access is that could be two. -/
def State.memRead (s : State) (addr : Addr) : ReadAnswer :=
  match target addr with
  | .unmapped => .modelFault .busError
  | .csr r => if s.busy && !r.readableWhileBusy then .modelFault .busyAccess else .data (s.readCsr r)
  | .byte b i =>
    if s.busy then .modelFault .busyAccess
    else
      match s.mem.read (b.base + i) with
      | none => .modelFault .uninitRead
      | some x => .data (x.setWidth 32)

/-- An accepted CMD write (10_state R28): the word is pending, DONE is cleared, BUSY set. The host accesses that come before
its engine step are a free value (log entry 2). -/
def State.accept (s : State) (w : Word) : State :=
  { s with cmd := w, done := false, busy := true, lat := Config.lat s.latIndex, latIndex := s.latIndex + 1 }

/-- A host write of `w` to CMD (10_state R28, 60_exceptions R307, 70_reset R352). -/
def State.writeCmd (s : State) (w : Word) : State :=
  if s.busy then { s with ovr := true }.record .cmdWhileBusy
  else if s.err then s
  else s.accept w

/-- CW_LEN <- w[11:0] (10_state R33). -/
def State.writeCwLen (s : State) (w : Word) : State := { s with cwLen := w.setWidth 12 }

/-- A host write of `w` to a buffer byte (20_memory R63, R64): the low byte is stored, or nothing in a read-only window. -/
def State.writeByte (s : State) (b : Buffer) (i : Nat) (w : Word) : State :=
  if b.hostWritable then { s with mem := s.mem.write (b.base + i) (w.setWidth 8) } else s

/-- An access that is not allowed while BUSY = 1 (70_reset R351); otherwise `s'`. -/
def State.unlessBusy (s s' : State) : State := if s.busy then s.record .busyAccess else s'

/-- A host write to a register: STATUS and CMD have their own rules in both phases; CW_LEN is stored; the read-only ones ignore
it (10_state R24, R28, R33, R36; 70_reset R350-R352). -/
def State.writeCsr (s : State) (r : Csr) (w : Word) : State :=
  match r with
  | .status => s.writeStatus w
  | .cmd => s.writeCmd w
  | .cwLen => s.unlessBusy (s.writeCwLen w)
  | .id => s.unlessBusy s
  | .cause => s.unlessBusy s
  | .info => s.unlessBusy s
  | .result => s.unlessBusy s
  | .rLen => s.unlessBusy s
  | .rsDeg => s.unlessBusy s
  | .matSize => s.unlessBusy s
  | .alignN => s.unlessBusy s
  | .alignC _ => s.unlessBusy s

/-- MemWrite (20_memory R62-R65, R72). -/
def State.memWrite (s : State) (addr : Addr) (w : Word) : State :=
  match target addr with
  | .unmapped => s.record .busError
  | .csr r => s.writeCsr r w
  | .byte b i => s.unlessBusy (s.writeByte b i w)

/-- The host takes note of what a read returned; a read that is a model-only fault is recorded and returns nothing
(60_exceptions R310). -/
def State.hostRead (s : State) (addr : Addr) : State :=
  match s.memRead addr with
  | .data w => { s with reads := s.reads ++ [w] }
  | .modelFault f => s.record f

/-- The reset input (70_reset R341): every piece of the engine's state takes its reset value; the host's script, its reads
and the count of accepted commands are not the engine's and stay. -/
def State.resetInput (s : State) : State :=
  { State.reset with script := s.script, reads := s.reads, latIndex := s.latIndex }

/-- The host's next action has been taken off its script, and one host action less remains before the engine step. -/
def State.took (s : State) (rest : List HostOp) : State := { s with script := rest, lat := s.lat - 1 }

/-- One poll of the wait loop (30_encoding R99): the loop ends when the STATUS word read has bit 0 clear, and stays the next
action otherwise. A poll's word is not kept, so that no result depends on LAT. Log entry 13. -/
def State.poll (s : State) (rest : List HostOp) : State :=
  if s.statusWord.getLsbD 0 then s.took (.wait :: rest) else s.took rest

/-- The host's turn: its next action, or nothing if it has none (20_memory R62, 70_reset R363). Log entry 3. -/
def State.hostTurn (s : State) : State :=
  match s.script with
  | [] => s
  | .rd addr :: rest => (s.took rest).hostRead addr
  | .wr addr w :: rest => (s.took rest).memWrite addr w
  | .wait :: rest => s.poll rest
  | .reset :: rest => (s.took rest).resetInput

/-- Whether the engine moves next: a command is pending, and the host has made the accesses that come before it or has none
to make (60_exceptions R300, 70_reset R360, R361). Log entries 2 and 20. -/
def State.engineTurn (s : State) : Bool := s.busy && (s.lat == 0 || s.script.isEmpty)

end Sys2Proof.Machine
end

