-- ==== Sys2Proof/Machine/Engine.lean ====
section
/-! DEFINITION. The engine step (60_exceptions R300): the pending command word is decoded and performed whole. -/

namespace Sys2Proof.Machine

/-- `engine_step()` (R300): decode csr[CMD], then perform the command; a word that is no command raises ILLEGAL with its
opcode as the detail (30_encoding R96). -/
def engineStep (s : State) : Result :=
  match decode s.cmd with
  | .cmd i => exec i s
  | .illegal why => raise s .illegal why.sub (opcodeOf s.cmd)

/-- The state with a command word pending, so that the very next step performs it: what an accepted CMD write leaves
(10_state R28), with no host access before the engine step and no model-only fault recorded. Log entry 19. -/
def State.withPending (s : State) (w : Word) : State :=
  { s with cmd := w, done := false, busy := true, lat := 0, faults := [] }

end Sys2Proof.Machine
end

