-- ==== Sys2Proof/Machine/Step.lean ====
section
/-! DEFINITION. One step of the machine: one event of the total order of host accesses and engine steps (20_memory R71). -/

namespace Sys2Proof.Machine

/-- One step. A state with a model-only fault recorded has none (60_exceptions R310); otherwise the engine or the host moves. -/
def step (s : State) : Host.Outcome State Fault Refusal :=
  match s.faults with
  | f :: _ => .fault (.faulted f)
  | [] => if s.engineTurn then engineStep s else .next s.hostTurn

/-- The command of `nbits` bits in `w` (bits above `nbits` zero) placed where the engine takes its next command: the CMD
register, pending (10_state R28, R29). Log entry 19. -/
def State.withFetchWord (s : State) (nbits w : Nat) : State :=
  s.withPending (BitVec.ofNat 32 (w % 2 ^ nbits))

end Sys2Proof.Machine
end

