-- ==== Sys2Proof/Machine/HostScript.lean ====
section
/-! DEFINITION. What a host writes down: the host script's pseudo-instructions (30_encoding R99), the command syntax an assembler
takes (R98) and the one a disassembler prints (R100). -/

namespace Sys2Proof.Machine

/-- A register's word address (10_state, section 2). -/
def Csr.addr : Csr → Addr
  | .id => 0x0000
  | .status => 0x0001
  | .cause => 0x0002
  | .info => 0x0003
  | .cmd => 0x0004
  | .result => 0x0005
  | .rLen => 0x0006
  | .rsDeg => 0x0007
  | .cwLen => 0x0008
  | .matSize => 0x0009
  | .alignN => 0x000A
  | .alignC k => 0x0010 + BitVec.ofNat 16 k.val

/-- The word address of byte `i` of a buffer: `A+i`, `B+i` and the like (R99). -/
def Buffer.addr (b : Buffer) (i : Nat) : Addr := BitVec.ofNat 16 (b.base + i)

/-- `cmd C` (R99): write the command's word to CMD. -/
def hostCmd (i : Instr) : List HostOp := [.wr Csr.cmd.addr (encode i)]

/-- `exec C` (R99): `cmd C`, then `wait`. -/
def hostExec (i : Instr) : List HostOp := hostCmd i ++ [.wait]

/-- `lda i, v0, …, vk`, and `ldb`, `ldi`, `ldo` for the other buffers (R99). -/
def hostLoad (b : Buffer) (i : Nat) : List Byte → List HostOp
  | [] => []
  | v :: vs => .wr (b.addr i) (v.setWidth 32) :: hostLoad b (i + 1) vs

/-- `clr` (R99): clear DONE, ERR and OVR. -/
def hostClr : List HostOp := [.wr Csr.status.addr 0x0000000E]

/-- A number as the bit it stands for; none if it does not fit one bit. -/
def asBit : Nat → Option Bool
  | 0 => some false
  | 1 => some true
  | _ => none

/-- The command a mnemonic and its operands name (R98); the mnemonic is in lower case here. -/
def commandOf (mnemonic : String) (operands : List Nat) : Option Instr :=
  match mnemonic, operands with
  | "gf.exp", [a] => some (.gfExp a)
  | "gf.log", [a] => some (.gfLog a)
  | "gf.mul", [a, b] => some (.gfMul a b)
  | "poly.mul", [p, q] => some (.polyMul p q)
  | "poly.mod", [p, q] => some (.polyMod p q)
  | "poly.gen", [n] => some (.polyGen n)
  | "rs.init", [n] => some (.rsInit n)
  | "rs.enc", [n] => some (.rsEnc n)
  | "ilv.build", [B, e, T] => some (.ilvBuild B e T)
  | "mat.init", [n] => some (.matInit n)
  | "mat.set", [r, c, v, sr] =>
    match asBit v, asBit sr with
    | some v, some sr => some (.matSet r c v sr)
    | _, _ => none
  | "mat.xor", [r, c, v] => (asBit v).map (Instr.matXor r c)
  | "mat.get", [r, c] => some (.matGet r c)
  | "sp.acoord", [n] => some (.spAcoord n)
  | "sp.finder", [] => some .spFinder
  | "sp.timing", [] => some .spTiming
  | "sp.align", [] => some .spAlign
  | "sp.format", [] => some .spFormat
  | "sp.version", [] => some .spVersion
  | "sp.dark", [] => some .spDark
  | "sp.place", [n] => some (.spPlace n)
  | "dp.zigzag", [] => some .dpZigzag
  | _, _ => none

/-- Assemble one command (R98): any letter case; an operand that does not fit its field is refused, not truncated. -/
def assemble (mnemonic : String) (operands : List Nat) : Option Word :=
  match commandOf mnemonic.toLower operands with
  | some i => if i.wellFormed then some (encode i) else none
  | none => none

/-- A mnemonic and its operands in the syntax of R98. -/
def syntaxLine (mnemonic : String) (operands : List Nat) : String :=
  if operands.isEmpty then mnemonic
  else mnemonic ++ " " ++ ", ".intercalate (operands.map fun n => toString n)

/-- A command in the syntax of R98, its operands decimal and in the order of R98. -/
def commandLine : Instr → String
  | .gfExp a => syntaxLine "gf.exp" [a]
  | .gfLog a => syntaxLine "gf.log" [a]
  | .gfMul a b => syntaxLine "gf.mul" [a, b]
  | .polyMul p q => syntaxLine "poly.mul" [p, q]
  | .polyMod p q => syntaxLine "poly.mod" [p, q]
  | .polyGen n => syntaxLine "poly.gen" [n]
  | .rsInit n => syntaxLine "rs.init" [n]
  | .rsEnc n => syntaxLine "rs.enc" [n]
  | .ilvBuild B e T => syntaxLine "ilv.build" [B, e, T]
  | .matInit n => syntaxLine "mat.init" [n]
  | .matSet r c v sr => syntaxLine "mat.set" [r, c, v.toNat, sr.toNat]
  | .matXor r c v => syntaxLine "mat.xor" [r, c, v.toNat]
  | .matGet r c => syntaxLine "mat.get" [r, c]
  | .spAcoord n => syntaxLine "sp.acoord" [n]
  | .spFinder => syntaxLine "sp.finder" []
  | .spTiming => syntaxLine "sp.timing" []
  | .spAlign => syntaxLine "sp.align" []
  | .spFormat => syntaxLine "sp.format" []
  | .spVersion => syntaxLine "sp.version" []
  | .spDark => syntaxLine "sp.dark" []
  | .spPlace n => syntaxLine "sp.place" [n]
  | .dpZigzag => syntaxLine "dp.zigzag" []

/-- The eight hexadecimal digits of a word, most significant first. -/
def hexDigits (w : Word) : String :=
  String.ofList ([28, 24, 20, 16, 12, 8, 4, 0].map fun lo => ("0123456789ABCDEF".toList).getD (field w lo 4) '0')

/-- Disassemble a word (R100): a word that raises ILLEGAL prints as `.word`. -/
def disassemble (w : Word) : String :=
  match decode w with
  | .cmd i => commandLine i
  | .illegal _ => ".word 0x" ++ hexDigits w

end Sys2Proof.Machine
end

