-- ==== Sys2Proof/Safety.lean ====
section
/-! DEFINITION. What counts as a safe and as a final state (60_exceptions R310, 70_reset R362), the invariants of the machine,
and the plain mathematics the statements compare the machine with: the table loop of 40_galois_field R120, the
coefficients of a product, the value of a polynomial at a point, the distance from a pattern's centre. -/

namespace Sys2Proof.Machine

/-! ### Safe and final states -/

/-- No model-only fault is recorded (R310): the premise of every claim about a run. -/
abbrev State.Safe (s : State) : Prop := s.faults = []

/-- The run has ended (R362): the host has performed its last line and no command is pending. -/
abbrev State.Final (s : State) : Prop := s.faults = [] ∧ s.script = [] ∧ s.busy = false

/-! ### Invariants -/

/-- The byte buffers and the matrix keep their canonical form. -/
abbrev State.FormInv (s : State) : Prop := s.mem.wf = true ∧ s.grid.wf = true

/-- The status registers agree (10_state R25, R26, 60_exceptions R302, R306): CAUSE and INFO are 0 without ERR and CAUSE is one of
1 to 7 with it, and while a command is pending neither DONE nor ERR is set. -/
abbrev State.StatusInv (s : State) : Prop :=
  (s.err = false → s.cause = 0 ∧ s.info = 0) ∧
  (s.err = true → 1 ≤ s.cause.toNat ∧ s.cause.toNat ≤ 7) ∧
  (s.busy = true → s.done = false ∧ s.err = false)

/-- The registers stay in their ranges (10_state R31, R34, R35). -/
abbrev State.RangeInv (s : State) : Prop :=
  s.rLen.toNat ≤ 256 ∧ s.matSize.toNat ≤ 177 ∧ ∀ k : Fin 7, s.alignN.toNat ≤ k.val → s.alignC[k] = 0

/-- The RS encoder state (10_state R32, R43): GEN holds the generator polynomial of degree RS_DEG, zeros above it, once a degree
is set, and RS_DEG is 0 before. -/
abbrev State.RsInv (s : State) : Prop :=
  (s.rsValid = false → s.rsDeg = 0) ∧
  (s.rsValid = true → s.bytes .gen 256 = some (padTo 256 (polygen s.rsDeg.toNat)))

/-- The machine's invariant. -/
abbrev State.Inv (s : State) : Prop := s.FormInv ∧ s.StatusInv ∧ s.RangeInv ∧ s.RsInv

/-! ### Buffers -/

/-- The buffer's bytes from index 0 up are the list's. -/
abbrev State.Holds (s : State) (b : Buffer) (bs : List Byte) : Prop :=
  ∀ i, i < bs.length → s.mem.read (b.base + i) = some (bs.getD i 0)

/-! ### Field and polynomials -/

/-- One turn of the table loop of R120: `x << 1`, reduced by 0x11d when bit 8 is set. -/
def nextPower (x : Nat) : Nat := if 256 ≤ 2 * x then (2 * x) ^^^ 0x11d else 2 * x

/-- The value of `x` before turn `i` of the loop of R120: EXP[i]. -/
def powerOf : Nat → Nat
  | 0 => 1
  | i + 1 => nextPower (powerOf i)

/-- The coefficient of a product at index `k` (41_polynomial R140): the XOR of `gfmul(p[i], q[j])` over `i + j = k`. -/
def productCoeff (p q : List Byte) (k : Nat) : Byte :=
  ((List.range (k + 1)).map fun i => gfmul (p.getD i 0) (q.getD (k - i) 0)).foldl (· ^^^ ·) 0

/-- The value of a polynomial, highest degree first, at a point. -/
def evalAt (p : List Byte) (x : Byte) : Byte := p.foldl (fun acc c => gfmul acc x ^^^ c) 0

/-! ### Placement geometry -/

/-- The distance of two coordinates. -/
def gap (a b : Nat) : Nat := (a - b) + (b - a)

/-- How many rings a cell lies from a centre. -/
def ring (r c r0 c0 : Nat) : Nat := max (gap r r0) (gap c c0)

/-- The place of a position in the walk of 45_data_placer R241 on side `n`: strip by strip of two columns from the right edge, each
`2 n` positions long; in a strip row by row, upward in the first and every second one after it, downward in the others; in a row the
right column before the left. On an odd side of at least 7 column 6 is skipped, so the columns left of it count one further right. -/
def visitPlace (n : Nat) (p : Nat × Nat) : Nat :=
  let fromRight := n - 1 - (if n % 2 = 1 ∧ 7 ≤ n ∧ p.2 < 6 then p.2 + 1 else p.2)
  let strip := fromRight / 2
  let rowInStrip := if strip % 2 = 0 then n - 1 - p.1 else p.1
  2 * n * strip + 2 * rowInStrip + fromRight % 2

/-! ### Running commands -/

/-- Perform commands one after another, each on the state the one before left. -/
def runCommands : List Instr → State → Option State
  | [], s => some s
  | i :: is, s =>
    match exec i s with
    | .next t => runCommands is t
    | .fault _ => none
    | .refused _ => none

/-- The state after a command faulted (60_exceptions R305): ERR, CAUSE and INFO are written, BUSY is cleared, nothing else
changes. -/
def State.faultedWith (s : State) (cause : BitVec 8) (info : Word) : State :=
  { s with err := true, cause := cause, info := info, busy := false }

/-- The state with the two flags of a completed command (60_exceptions R300). -/
def State.doneWith (s : State) : State := { s with done := true, busy := false }

end Sys2Proof.Machine
end

