-- ==== Sys2Proof/Certificates/Slice0/Obligations.lean ====
section
/-! DEFINITION. The statements about the model, for the provers. Each docstring names the rules or sections of spec/ it rests on;
OBLIGATIONS.json lists them. -/

open Sys2Proof Sys2Proof.Machine

/-! ### Encoding -/

/-- The 22 example words of 30_encoding R98 decode to the commands they are written for. -/
def Obligations.DecodeExampleWords : Prop :=
  decode 0x08000800 = .cmd (.gfExp 8) ∧ decode 0x10000000 = .cmd (.gfLog 0) ∧
  decode 0x180053CA = .cmd (.gfMul 0x53 0xCA) ∧ decode 0x20002003 = .cmd (.polyMul 2 3) ∧
  decode 0x2801A00B = .cmd (.polyMod 26 11) ∧ decode 0x3000000A = .cmd (.polyGen 10) ∧
  decode 0x3800000A = .cmd (.rsInit 10) ∧ decode 0x40000010 = .cmd (.rsEnc 16) ∧
  decode 0x48412086 = .cmd (.ilvBuild 4 18 134) ∧ decode 0x50000015 = .cmd (.matInit 21) ∧
  decode 0x58030403 = .cmd (.matSet 3 4 true true) ∧ decode 0x60141402 = .cmd (.matXor 20 20 true) ∧
  decode 0x680D0800 = .cmd (.matGet 13 8) ∧ decode 0x70000007 = .cmd (.spAcoord 7) ∧
  decode 0x78000000 = .cmd .spFinder ∧ decode 0x80000000 = .cmd .spTiming ∧
  decode 0x88000000 = .cmd .spAlign ∧ decode 0x90000000 = .cmd .spFormat ∧
  decode 0x98000000 = .cmd .spVersion ∧ decode 0xA0000000 = .cmd .spDark ∧
  decode 0xA8000001 = .cmd (.spPlace 1) ∧ decode 0xB0000000 = .cmd .dpZigzag

/-- Decoding the word of any command whose operands fit their fields gives the command back (30_encoding R90-R93, R96). -/
def Obligations.DecodeOfEncode : Prop :=
  ∀ i : Instr, i.wellFormed = true → decode (encode i) = .cmd i

/-- A word that decodes has one meaning: its operands fit their fields and it is the command's own word (R91-R96). -/
def Obligations.EncodeOfDecode : Prop :=
  ∀ (w : Word) (i : Instr), decode w = .cmd i → i.wellFormed = true ∧ encode i = w

/-- R94: a pending word with opcode 0x00 or 0x17 to 0x1F raises ILLEGAL with sub-code 1 and the opcode as the detail. -/
def Obligations.ReservedOpcodeRaisesIllegal : Prop :=
  ∀ s : State, s.faults = [] → s.engineTurn = true →
    (s.cmd.toNat / 2 ^ 27 = 0 ∨ 0x17 ≤ s.cmd.toNat / 2 ^ 27) →
    step s = .next (s.faultedWith 1 (0x01000000 + BitVec.ofNat 32 (s.cmd.toNat / 2 ^ 27)))

/-- R95: a pending word with a defined opcode and a 1 in a bit its row's mask covers outside bits [31:27] raises ILLEGAL with
sub-code 2 and the opcode as the detail. -/
def Obligations.MustBeZeroBitRaisesIllegal : Prop :=
  ∀ (s : State) (row : OpRow) (k : Nat), s.faults = [] → s.engineTurn = true →
    row ∈ opcodeTable → s.cmd.toNat / 2 ^ 27 = row.opcode → k < 27 →
    row.mask.getLsbD k = true → s.cmd.getLsbD k = true →
    step s = .next (s.faultedWith 1 (0x02000000 + BitVec.ofNat 32 (s.cmd.toNat / 2 ^ 27)))

/-! ### The engine step, reset and the host's turn -/

/-- When it is the engine's turn and the pending word decodes to a command, the step is exec of that command, with nothing
around it (60_exceptions, section 1). That a word placed with withFetchWord is performed by the very next step is the model's choice
(log entry 19: withFetchWord sets the latency, which the spec leaves open, to 0 and the model-only fault list to empty). -/
def Obligations.StepPerformsPendingCommand : Prop :=
  (∀ (s : State) (i : Instr), s.faults = [] → s.engineTurn = true → decode s.cmd = .cmd i → step s = exec i s) ∧
  (∀ (s : State) (nbits w : Nat) (i : Instr), decodeTableWord nbits w = some i →
    step (s.withFetchWord nbits w) = exec i (s.withFetchWord nbits w))

/-- R340: the reset values the spec gives. -/
def Obligations.ResetState : Prop :=
  State.reset.readCsr .id = 0x51520107 ∧ State.reset.busy = false ∧ State.reset.done = false ∧ State.reset.err = false ∧
  State.reset.ovr = false ∧ State.reset.rsValid = false ∧ State.reset.cause = 0 ∧ State.reset.info = 0 ∧
  State.reset.cmd = 0 ∧ State.reset.phase = .idle ∧ State.reset.result = 0 ∧ State.reset.rLen = 0 ∧
  State.reset.rsDeg = 0 ∧ State.reset.cwLen = 0 ∧ State.reset.matSize = 0 ∧ State.reset.alignN = 0 ∧
  (∀ k : Fin 7, State.reset.alignC[k] = 0) ∧
  (∀ i, i < 256 → State.reset.mem.read (Buffer.polyR.base + i) = some 0 ∧ State.reset.mem.read (Buffer.gen.base + i) = some 0) ∧
  (∀ i, i < 256 → State.reset.mem.read (Buffer.polyA.base + i) = none ∧ State.reset.mem.read (Buffer.polyB.base + i) = none) ∧
  (∀ i, i < 4096 → State.reset.mem.read (Buffer.cwIn.base + i) = none ∧ State.reset.mem.read (Buffer.cwOut.base + i) = none) ∧
  State.reset.faults = []

/-- The host's turn (20_memory, section 2; 30_encoding, section 5): a read notes the word and changes nothing else, a read that is
a model-only fault records it, a write is one MemWrite, wait polls STATUS until BUSY is 0, and a host with nothing to do leaves the
state as it is. The model's choices in it: the host's actions and the words it reads stand in script and reads (log entry 1), each
action counts lat down by one (log entry 2), a poll's word is not kept in reads (log entry 13), and the idle host's step changes
nothing (log entry 3). -/
def Obligations.HostTurnPerformsAccess : Prop :=
  ∀ s : State, s.faults = [] → s.engineTurn = false →
    (s.script = [] → step s = .next s) ∧
    (∀ a rest w, s.script = .rd a :: rest → s.memRead a = .data w →
      step s = .next { s with script := rest, lat := s.lat - 1, reads := s.reads ++ [w] }) ∧
    (∀ a rest f, s.script = .rd a :: rest → s.memRead a = .modelFault f →
      step s = .next { s with script := rest, lat := s.lat - 1, faults := [f] }) ∧
    (∀ a w rest, s.script = .wr a w :: rest →
      step s = .next ({ s with script := rest, lat := s.lat - 1 }.memWrite a w)) ∧
    (∀ rest, s.script = .wait :: rest → s.busy = false →
      step s = .next { s with script := rest, lat := s.lat - 1 }) ∧
    (∀ rest, s.script = .wait :: rest → s.busy = true →
      step s = .next { s with lat := s.lat - 1 })

/-- The reset input, in either phase, puts every piece of the engine's state at its reset value and discards a pending command
(70_reset R341); the host's own script, reads and command count stay (log entry 9). -/
def Obligations.ResetInputResets : Prop :=
  ∀ (s : State) (rest : List HostOp), s.faults = [] → s.engineTurn = false → s.script = .reset :: rest →
    step s = .next { State.reset with script := rest, reads := s.reads, latIndex := s.latIndex }

/-- No step of either agent is enabled in a state with a model-only fault recorded (60_exceptions R310). -/
def Obligations.FaultedStateHasNoStep : Prop :=
  ∀ (s : State) (f : ModelFault) (fs : List ModelFault), s.faults = f :: fs → step s = .fault (.faulted f)

/-- Every wait ends (70_reset R361): from a pending command, with wait the host's next action, some number of steps reaches the
end of the wait with BUSY 0, or a recorded model-only fault. -/
def Obligations.WaitEnds : Prop :=
  ∀ (s : State) (rest : List HostOp), s.faults = [] → s.busy = true → s.script = .wait :: rest →
    ∃ (k : Nat) (t : State), core.run k s = .next t ∧
      ((t.busy = false ∧ t.script = rest ∧ t.faults = []) ∨ t.faults ≠ [])

/-! ### Galois field -/

/-- GF.EXP leaves EXP[a mod 255] of the table loop of R120 in RESULT and completes (40_galois_field R121, R125). -/
def Obligations.GfExpResult : Prop :=
  ∀ (a : Nat) (s : State), a < 256 →
    exec (.gfExp a) s = .next { s with result := BitVec.ofNat 32 (powerOf (a % 255)), done := true, busy := false }

/-- GF.LOG of 0 faults DOMAIN; of any other byte it leaves in RESULT the one exponent below 255 whose power of the table loop is
the byte, and completes (40_galois_field R122, R126). -/
def Obligations.GfLogResult : Prop :=
  ∀ (a : Nat) (s : State), a < 256 →
    (a = 0 → exec (.gfLog a) s = .next (s.faultedWith 2 0x01000000)) ∧
    (a ≠ 0 → ∃ i, i < 255 ∧ powerOf i = a ∧ (∀ j, j < 255 → powerOf j = a → j = i) ∧
      exec (.gfLog a) s = .next { s with result := BitVec.ofNat 32 i, done := true, busy := false })

/-- R123: GF.MUL leaves 0 when an operand is 0, and otherwise the power whose exponent is the sum of the operands' logarithms
mod 255; it never faults. -/
def Obligations.GfMulResult : Prop :=
  ∀ (a b : Nat) (s : State), a < 256 → b < 256 →
    (a = 0 ∨ b = 0 → exec (.gfMul a b) s = .next { s with result := 0, done := true, busy := false }) ∧
    (a ≠ 0 → b ≠ 0 → ∃ i j, i < 255 ∧ j < 255 ∧ powerOf i = a ∧ powerOf j = b ∧
      exec (.gfMul a b) s =
        .next { s with result := BitVec.ofNat 32 (powerOf ((i + j) % 255)), done := true, busy := false })

/-- The field laws of 40_galois_field R124: the product is commutative and associative, distributes over XOR, has 1 as its
identity, and every non-zero element has exactly one inverse. -/
def Obligations.FieldLaws : Prop :=
  ∀ a b c : Byte,
    gfmul a b = gfmul b a ∧ gfmul (gfmul a b) c = gfmul a (gfmul b c) ∧
    gfmul a (b ^^^ c) = gfmul a b ^^^ gfmul a c ∧ gfmul 1 a = a ∧
    (a ≠ 0 → ∃ x, gfmul a x = 1 ∧ ∀ y, gfmul a y = 1 → y = x)

/-- GF.EXP, GF.LOG, GF.MUL and MAT.GET change RESULT, the flags of their end and, on a fault, CAUSE and INFO; SP.ACOORD changes
ALIGN_N and ALIGN_Ck in place of RESULT. Everything else, every byte of memory and every cell among it, stays (10_state R30,
R35; 60_exceptions R300, R301). -/
def Obligations.ScalarFrame : Prop :=
  (∀ (i : Instr) (s t : State),
    ((∃ a, i = .gfExp a) ∨ (∃ a, i = .gfLog a) ∨ (∃ a b, i = .gfMul a b) ∨ (∃ r c, i = .matGet r c)) →
    exec i s = .next t →
    t = { s with result := t.result, busy := t.busy, done := t.done, err := t.err, cause := t.cause, info := t.info }) ∧
  (∀ (n : Nat) (s t : State), exec (.spAcoord n) s = .next t →
    t = { s with alignN := t.alignN, alignC := t.alignC, busy := t.busy, done := t.done, err := t.err, cause := t.cause, info := t.info })

/-! ### Polynomials -/

/-- R140: POLY.MUL leaves the product, whose coefficient k is the XOR of gfmul(p[i], q[j]) over i + j = k, of length
len(p) + len(q) - 1, with leading zeros kept, and zeros above it in POLY_R. -/
def Obligations.PolyMulResult : Prop :=
  ∀ (s : State) (p q : List Byte), s.Holds .polyA p → s.Holds .polyB q →
    1 ≤ p.length → p.length ≤ 256 → 1 ≤ q.length → q.length ≤ 256 → p.length + q.length - 1 ≤ 256 →
    ∃ t, exec (.polyMul p.length q.length) s = .next t ∧ t.done = true ∧ t.busy = false ∧ t.err = s.err ∧
      t.rLen.toNat = p.length + q.length - 1 ∧
      ∀ k, k < 256 → t.mem.read (Buffer.polyR.base + k) = some (productCoeff p q k)

/-- POLY.MOD by a monic divisor leaves the remainder of the division (41_polynomial R143-R145): shorter than the divisor, with no
leading zero, and the dividend itself stripped or, with some quotient, the dividend less quotient times divisor. -/
def Obligations.PolyModResult : Prop :=
  ∀ (s : State) (a d : List Byte), s.Holds .polyA a → s.Holds .polyB d →
    a.length ≤ 256 → 1 ≤ d.length → d.length ≤ 256 → d.headD 0 = 1 →
    ∃ t r, exec (.polyMod a.length d.length) s = .next t ∧ t.done = true ∧ t.busy = false ∧ t.err = s.err ∧
      t.rLen.toNat = r.length ∧
      (∀ k, k < 256 → t.mem.read (Buffer.polyR.base + k) = some (r.getD k 0)) ∧
      r.length < d.length ∧ (r = [] ∨ r.headD 0 ≠ 0) ∧
      (a.length < d.length → r = strip a) ∧
      (d.length ≤ a.length → ∃ q : List Byte, q.length = a.length - d.length + 1 ∧
        a = xorInto (zeros (a.length - r.length) ++ r) (polymul q d))

/-- POLY.MUL and POLY.MOD report the first of their failing checks (41_polynomial, section 2; 60_exceptions, section 3). -/
def Obligations.PolyFaults : Prop :=
  ∀ (p q : Nat) (s : State), p < 4096 → q < 4096 →
    ((p = 0 ∨ 256 < p) → exec (.polyMul p q) s = .next (s.faultedWith 5 (0x01000000 + BitVec.ofNat 32 p))) ∧
    (1 ≤ p → p ≤ 256 → (q = 0 ∨ 256 < q) →
      exec (.polyMul p q) s = .next (s.faultedWith 5 (0x02000000 + BitVec.ofNat 32 q))) ∧
    (1 ≤ p → p ≤ 256 → 1 ≤ q → q ≤ 256 → 256 < p + q - 1 →
      exec (.polyMul p q) s = .next (s.faultedWith 5 (0x03000000 + BitVec.ofNat 32 (p + q - 1)))) ∧
    (256 < p → exec (.polyMod p q) s = .next (s.faultedWith 5 (0x01000000 + BitVec.ofNat 32 p))) ∧
    (p ≤ 256 → (q = 0 ∨ 256 < q) →
      exec (.polyMod p q) s = .next (s.faultedWith 5 (0x02000000 + BitVec.ofNat 32 q))) ∧
    (∀ x : Byte, p ≤ 256 → 1 ≤ q → q ≤ 256 → s.mem.read Buffer.polyB.base = some x → x ≠ 1 →
      exec (.polyMod p q) s = .next (s.faultedWith 2 (0x02000000 + x.setWidth 32)))

/-- R147: POLY.GEN leaves the generator polynomial of degree n, monic and of length n + 1, zeros above it, and leaves the RS encoder
state (RS_DEG, RS_VALID, GEN) untouched; a degree above 255 faults LENGTH 4. -/
def Obligations.PolyGenResult : Prop :=
  ∀ (n : Nat) (s : State), n < 4096 →
    (n ≤ 255 → ∃ t, exec (.polyGen n) s = .next t ∧ t.done = true ∧ t.busy = false ∧ t.err = s.err ∧
      t.rLen.toNat = n + 1 ∧ (polygen n).length = n + 1 ∧ (polygen n).headD 0 = 1 ∧
      (∀ k, k < 256 → t.mem.read (Buffer.polyR.base + k) = some ((polygen n).getD k 0)) ∧
      t.rsDeg = s.rsDeg ∧ t.rsValid = s.rsValid ∧
      ∀ k, k < 256 → t.mem.read (Buffer.gen.base + k) = s.mem.read (Buffer.gen.base + k)) ∧
    (255 < n → exec (.polyGen n) s = .next (s.faultedWith 5 (0x04000000 + BitVec.ofNat 32 n)))

/-- The generator polynomial of degree n has exactly the roots gfexp(0) to gfexp(n - 1) (41_polynomial R146, the product of the
factors x - gfexp(i)). -/
def Obligations.GeneratorRoots : Prop :=
  ∀ (n : Nat) (x : Byte), evalAt (polygen n) x = 0 ↔ ∃ i, i < n ∧ x = gfexp i

/-- POLY.MUL, POLY.MOD, POLY.GEN and RS.ENC change no byte outside POLY_R, and besides it only R_LEN, the flags of their end, CAUSE
and INFO on a fault, and the model-only fault list (10_state R40, R42; 60_exceptions R300, R301, R310). -/
def Obligations.PolyFrame : Prop :=
  ∀ (i : Instr) (s t : State),
    ((∃ p q, i = .polyMul p q) ∨ (∃ p q, i = .polyMod p q) ∨ (∃ n, i = .polyGen n) ∨ (∃ n, i = .rsEnc n)) →
    exec i s = .next t →
    (∀ a, a < Buffer.polyR.base ∨ Buffer.polyR.base + 256 ≤ a → t.mem.read a = s.mem.read a) ∧
    t = { s with
      mem := t.mem, rLen := t.rLen, busy := t.busy, done := t.done, err := t.err, cause := t.cause, info := t.info,
      faults := t.faults }

/-! ### Reed-Solomon encoder and interleaver -/

/-- R161, R162: RS.INIT sets the degree and the generator polynomial of that degree, zeros above it, whatever the state before, and
leaves POLY_R and R_LEN untouched; a degree above 255 faults LENGTH 4. -/
def Obligations.RsInitResult : Prop :=
  ∀ (n : Nat) (s : State), n < 4096 →
    (n ≤ 255 → ∃ t, exec (.rsInit n) s = .next t ∧ t.done = true ∧ t.busy = false ∧ t.err = s.err ∧
      t.rsDeg.toNat = n ∧ t.rsValid = true ∧
      (∀ k, k < 256 → t.mem.read (Buffer.gen.base + k) = some ((polygen n).getD k 0)) ∧
      t.rLen = s.rLen ∧ ∀ k, k < 256 → t.mem.read (Buffer.polyR.base + k) = s.mem.read (Buffer.polyR.base + k)) ∧
    (255 < n → exec (.rsInit n) s = .next (s.faultedWith 5 (0x04000000 + BitVec.ofNat 32 n)))

/-- RS.ENC leaves exactly RS_DEG codewords, the Reed-Solomon remainder of the data under the generator polynomial of that degree,
zeros above them (42_reed_solomon R163, R164), in every state whose RS encoder state is consistent (10_state R43). -/
def Obligations.RsEncResult : Prop :=
  ∀ (s : State) (data : List Byte), s.rsValid = true → s.RsInv → s.Holds .polyA data → data.length ≤ 256 →
    ∃ t, exec (.rsEnc data.length) s = .next t ∧ t.done = true ∧ t.busy = false ∧ t.err = s.err ∧
      t.rLen.toNat = s.rsDeg.toNat ∧
      ∀ k, k < 256 → t.mem.read (Buffer.polyR.base + k) = some ((rsenc data (polygen s.rsDeg.toNat)).getD k 0)

/-- RS.ENC faults NOT_INIT before any degree was set, then LENGTH 1; ILV.BUILD faults LAYOUT 1, then LAYOUT 2 (42_reed_solomon R164,
46_interleaver R265, 60_exceptions R303, R304). -/
def Obligations.RsAndIlvFaults : Prop :=
  ∀ s : State,
    (∀ n, s.rsValid = false → exec (.rsEnc n) s = .next (s.faultedWith 3 0)) ∧
    (∀ n, n < 4096 → s.rsValid = true → 256 < n →
      exec (.rsEnc n) s = .next (s.faultedWith 5 (0x01000000 + BitVec.ofNat 32 n))) ∧
    (∀ e T, exec (.ilvBuild 0 e T) s = .next (s.faultedWith 7 0x01000000)) ∧
    (∀ B e T, 1 ≤ B → B < 128 → e < 256 → T < 4096 → T < B * e →
      exec (.ilvBuild B e T) s = .next (s.faultedWith 7 (0x02000000 + BitVec.ofNat 32 (B * e))))

/-- The code is systematic (42_reed_solomon R165): the encoder gives exactly n codewords, and the data followed by them is a
multiple of the generator polynomial. -/
def Obligations.RsCodeIsSystematic : Prop :=
  ∀ (n : Nat) (data : List Byte),
    (rsenc data (polygen n)).length = n ∧ polymod (data ++ rsenc data (polygen n)) (polygen n) = []

/-- ILV.BUILD (46_interleaver R260-R266). With D data codewords, d1 = D / B and g1 = B - D mod B: block b starts at codeword
`start b` and has `len b` of them; data codeword i of block b goes to i*B + b, the extra one of a group-2 block to d1*B + (b - g1),
EC codeword i of block b to D + i*B + b; CW_OUT above T stays; the RS encoder is left at degree e. -/
def Obligations.IlvBuildResult : Prop :=
  ∀ (s : State) (B e T : Nat) (data : List Byte), 1 ≤ B → B < 128 → e < 256 → T < 4096 → B * e ≤ T →
    s.Holds .cwIn data → data.length = T - B * e →
    let d1 := data.length / B
    let g1 := B - data.length % B
    let start := fun b => if b < g1 then b * d1 else g1 * d1 + (b - g1) * (d1 + 1)
    let len := fun b => if b < g1 then d1 else d1 + 1
    ∃ t, exec (.ilvBuild B e T) s = .next t ∧ t.done = true ∧ t.busy = false ∧ t.err = s.err ∧ t.cwLen.toNat = T ∧
      (∀ b i, b < B → i < d1 → t.mem.read (Buffer.cwOut.base + (i * B + b)) = some (data.getD (start b + i) 0)) ∧
      (∀ b, b < B → g1 ≤ b →
        t.mem.read (Buffer.cwOut.base + (d1 * B + (b - g1))) = some (data.getD (start b + d1) 0)) ∧
      (∀ b i, b < B → i < e → t.mem.read (Buffer.cwOut.base + (data.length + i * B + b)) =
        some ((rsenc ((data.drop (start b)).take (len b)) (polygen e)).getD i 0)) ∧
      (∀ k, T ≤ k → k < 4096 → t.mem.read (Buffer.cwOut.base + k) = s.mem.read (Buffer.cwOut.base + k)) ∧
      t.rsDeg.toNat = e ∧ t.rsValid = true ∧
      (∀ k, k < 256 → t.mem.read (Buffer.gen.base + k) = some ((polygen e).getD k 0))

/-- RS.INIT changes no byte outside GEN, ILV.BUILD none outside GEN and CW_OUT[0..T); besides memory they change RS_DEG, RS_VALID, for
ILV.BUILD CW_LEN, the flags of their end, CAUSE and INFO on a fault, and the model-only fault list (42_reed_solomon R161,
46_interleaver R265). -/
def Obligations.RsStateFrame : Prop :=
  (∀ (n : Nat) (s t : State), exec (.rsInit n) s = .next t →
    (∀ a, a < Buffer.gen.base ∨ Buffer.gen.base + 256 ≤ a → t.mem.read a = s.mem.read a) ∧
    t = { s with
      mem := t.mem, rsDeg := t.rsDeg, rsValid := t.rsValid, busy := t.busy, done := t.done, err := t.err,
      cause := t.cause, info := t.info }) ∧
  (∀ (B e T : Nat) (s t : State), exec (.ilvBuild B e T) s = .next t →
    (∀ a, (a < Buffer.gen.base ∨ Buffer.gen.base + 256 ≤ a) → (a < Buffer.cwOut.base ∨ Buffer.cwOut.base + T ≤ a) →
      t.mem.read a = s.mem.read a) ∧
    t = { s with
      mem := t.mem, rsDeg := t.rsDeg, rsValid := t.rsValid, cwLen := t.cwLen, busy := t.busy, done := t.done, err := t.err,
      cause := t.cause, info := t.info, faults := t.faults })

/-! ### Module matrix -/

/-- MAT.INIT makes an empty matrix of side 1 to 177, every cell light and free, and faults RANGE 1 on any other side
(43_bit_matrix R183). -/
def Obligations.MatInitResult : Prop :=
  ∀ (n : Nat) (s : State), n < 4096 →
    (1 ≤ n → n ≤ 177 → ∃ t, exec (.matInit n) s = .next t ∧ t.done = true ∧ t.busy = false ∧ t.err = s.err ∧
      t.matSize.toNat = n ∧ ∀ r c, r < 177 → c < 177 → t.cell r c = ⟨false, false⟩) ∧
    (n = 0 ∨ 177 < n → exec (.matInit n) s = .next (s.faultedWith 4 (0x01000000 + BitVec.ofNat 32 n)))

/-- MAT.SET writes the cell's module value and, with s = 1, reserves it; with s = 0 its reserved flag stays; no other cell changes
(43_bit_matrix R184). -/
def Obligations.MatSetResult : Prop :=
  ∀ (r c : Nat) (v sr : Bool) (s : State), r < s.matSize.toNat → c < s.matSize.toNat →
    ∃ t, exec (.matSet r c v sr) s = .next t ∧ t.done = true ∧ t.busy = false ∧ t.err = s.err ∧
      t.cell r c = ⟨v, sr || (s.cell r c).reserved⟩ ∧
      ∀ r' c', c' < 256 → (r' ≠ r ∨ c' ≠ c) → t.cell r' c' = s.cell r' c'

/-- MAT.XOR flips the cell's module value by v, reserved or not, leaves its reserved flag and every other cell, and a second one
restores every cell (43_bit_matrix R185, R187). -/
def Obligations.MatXorResult : Prop :=
  ∀ (r c : Nat) (v : Bool) (s : State), r < s.matSize.toNat → c < s.matSize.toNat →
    ∃ t u, exec (.matXor r c v) s = .next t ∧ t.done = true ∧ t.busy = false ∧ t.err = s.err ∧
      t.cell r c = ⟨(s.cell r c).dark ^^ v, (s.cell r c).reserved⟩ ∧
      (∀ r' c', c' < 256 → (r' ≠ r ∨ c' ≠ c) → t.cell r' c' = s.cell r' c') ∧
      exec (.matXor r c v) t = .next u ∧ ∀ r' c', c' < 256 → u.cell r' c' = s.cell r' c'

/-- MAT.GET leaves 2 RES + MOD of the cell in RESULT (43_bit_matrix R186). -/
def Obligations.MatGetResult : Prop :=
  ∀ (r c : Nat) (s : State), r < s.matSize.toNat → c < s.matSize.toNat →
    exec (.matGet r c) s = .next { s with
      result := BitVec.ofNat 32 (2 * (s.cell r c).reserved.toNat + (s.cell r c).dark.toNat), done := true, busy := false }

/-- R180: MAT.SET, MAT.XOR and MAT.GET fault RANGE 2 when there is no matrix, then RANGE 3 with the detail (r << 8) | c when the
cell lies outside it. -/
def Obligations.CellCheckFaults : Prop :=
  ∀ (r c : Nat) (v sr : Bool) (s : State) (i : Instr), r < 256 → c < 256 →
    (i = .matSet r c v sr ∨ i = .matXor r c v ∨ i = .matGet r c) →
    (s.matSize.toNat = 0 → exec i s = .next (s.faultedWith 4 0x02000000)) ∧
    (s.matSize.toNat ≠ 0 → (s.matSize.toNat ≤ r ∨ s.matSize.toNat ≤ c) →
      exec i s = .next (s.faultedWith 4 (0x03000000 + BitVec.ofNat 32 (256 * r + c))))

/-- The matrix commands change no byte of memory: MAT.SET, MAT.XOR, DP.ZIGZAG and the six structural placers change cells, MAT.INIT and
SP.PLACE also MAT_SIZE; besides, the flags of their end, CAUSE and INFO on a fault, and for DP.ZIGZAG the model-only fault list
(43_bit_matrix section 2, 44_structural_placer, 45_data_placer section 3). -/
def Obligations.MatrixFrame : Prop :=
  (∀ (i : Instr) (s t : State),
    ((∃ r c v sr, i = .matSet r c v sr) ∨ (∃ r c v, i = .matXor r c v) ∨ i = .spFinder ∨ i = .spTiming ∨ i = .spAlign ∨
      i = .spFormat ∨ i = .spVersion ∨ i = .spDark) →
    exec i s = .next t →
    t = { s with grid := t.grid, busy := t.busy, done := t.done, err := t.err, cause := t.cause, info := t.info }) ∧
  (∀ (i : Instr) (s t : State), ((∃ n, i = .matInit n) ∨ (∃ n, i = .spPlace n)) → exec i s = .next t →
    t = { s with
      grid := t.grid, matSize := t.matSize, busy := t.busy, done := t.done, err := t.err, cause := t.cause, info := t.info }) ∧
  (∀ s t : State, exec .dpZigzag s = .next t →
    t = { s with
      grid := t.grid, busy := t.busy, done := t.done, err := t.err, cause := t.cause, info := t.info, faults := t.faults })

/-! ### Structural placer -/

/-- SP.ACOORD reports the alignment coordinates of version n (44_structural_placer R205, R213), none for version 1, else n / 7 + 2 of
them: the first 6, the others stepping down from 4n + 10; unused registers are 0; a version outside 1 to 40 faults GEOMETRY 2. -/
def Obligations.SpAcoordResult : Prop :=
  ∀ (n : Nat) (s : State), n < 4096 →
    let N := if n = 1 then 0 else n / 7 + 2
    let stride := if n = 32 then 26 else 2 * ((4 * n + 4 + (2 * N - 2) - 1) / (2 * N - 2))
    ((n < 1 ∨ 40 < n) → exec (.spAcoord n) s = .next (s.faultedWith 6 (0x02000000 + BitVec.ofNat 32 n))) ∧
    (1 ≤ n → n ≤ 40 → ∃ t, exec (.spAcoord n) s = .next t ∧ t.done = true ∧ t.busy = false ∧ t.err = s.err ∧
      t.alignN.toNat = N ∧
      ∀ k : Fin 7, (t.alignC[k]).toNat =
        if N ≤ k.val then 0 else if k.val = 0 then 6 else 4 * n + 10 - (N - 1 - k.val) * stride)

/-- SP.FINDER places the three finder patterns with their separators (44_structural_placer R201, R202): by rings around each centre,
rings 0, 1 and 3 dark, 2 and 4 light, all reserved; every other cell stays. -/
def Obligations.SpFinderResult : Prop :=
  ∀ (s : State) (v : Nat), 1 ≤ v → v ≤ 40 → s.matSize.toNat = 4 * v + 17 →
    let n := 4 * v + 17
    let pattern := fun d : Nat => (⟨d ≤ 1 || d == 3, true⟩ : Cell)
    ∃ t, exec .spFinder s = .next t ∧ t.done = true ∧ t.busy = false ∧ t.err = s.err ∧
      ∀ r c, r < n → c < n → t.cell r c =
        if ring r c 3 3 ≤ 4 then pattern (ring r c 3 3)
        else if ring r c (n - 4) 3 ≤ 4 then pattern (ring r c (n - 4) 3)
        else if ring r c 3 (n - 4) ≤ 4 then pattern (ring r c 3 (n - 4))
        else s.cell r c

/-- SP.TIMING places the two timing lines, row 6 and column 6 from 8 to s - 9, dark on even indices, reserved; every other cell stays
(44_structural_placer R203, R204). -/
def Obligations.SpTimingResult : Prop :=
  ∀ (s : State) (v : Nat), 1 ≤ v → v ≤ 40 → s.matSize.toNat = 4 * v + 17 →
    let n := 4 * v + 17
    ∃ t, exec .spTiming s = .next t ∧ t.done = true ∧ t.busy = false ∧ t.err = s.err ∧
      ∀ r c, r < n → c < n → t.cell r c =
        if (c = 6 ∧ 8 ≤ r ∧ r ≤ n - 9) ∨ (r = 6 ∧ 8 ≤ c ∧ c ≤ n - 9) then ⟨(r + c) % 2 == 0, true⟩ else s.cell r c

/-- SP.ALIGN places a 5 x 5 pattern around every pair of alignment coordinates but the three on the finder patterns
(44_structural_placer R206-R208): rings 0 and 2 dark, 1 light, reserved; every other cell stays. -/
def Obligations.SpAlignResult : Prop :=
  ∀ (s : State) (v : Nat), 1 ≤ v → v ≤ 40 → s.matSize.toNat = 4 * v + 17 →
    let co := acoords v
    let m := co.length
    let centre := fun i j : Nat =>
      i < m ∧ j < m ∧ ¬(i = 0 ∧ j = 0) ∧ ¬(i = 0 ∧ j = m - 1) ∧ ¬(i = m - 1 ∧ j = 0)
    ∃ t, exec .spAlign s = .next t ∧ t.done = true ∧ t.busy = false ∧ t.err = s.err ∧
      ∀ r c, r < 4 * v + 17 → c < 4 * v + 17 →
        (∀ i j, centre i j → ring r c (co.getD i 0) (co.getD j 0) ≤ 2 →
          t.cell r c = ⟨ring r c (co.getD i 0) (co.getD j 0) != 1, true⟩) ∧
        ((∀ i j, centre i j → 2 < ring r c (co.getD i 0) (co.getD j 0)) → t.cell r c = s.cell r c)

/-- SP.FORMAT reserves the 30 format-information cells, light; every other cell stays (44_structural_placer R209, R210). -/
def Obligations.SpFormatResult : Prop :=
  ∀ (s : State) (v : Nat), 1 ≤ v → v ≤ 40 → s.matSize.toNat = 4 * v + 17 →
    let n := 4 * v + 17
    ∃ t, exec .spFormat s = .next t ∧ t.done = true ∧ t.busy = false ∧ t.err = s.err ∧
      ∀ r c, r < n → c < n → t.cell r c =
        if (c = 8 ∧ (r ≤ 5 ∨ r = 7 ∨ r = 8 ∨ n - 7 ≤ r)) ∨ (r = 8 ∧ (c ≤ 5 ∨ c = 7 ∨ n - 8 ≤ c)) then ⟨false, true⟩
        else s.cell r c

/-- SP.VERSION reserves the 36 version-information cells, light, from version 7 on, and changes no cell below; every other cell stays
(44_structural_placer R211, R212). -/
def Obligations.SpVersionResult : Prop :=
  ∀ (s : State) (v : Nat), 1 ≤ v → v ≤ 40 → s.matSize.toNat = 4 * v + 17 →
    let n := 4 * v + 17
    ∃ t, exec .spVersion s = .next t ∧ t.done = true ∧ t.busy = false ∧ t.err = s.err ∧
      ∀ r c, r < n → c < n → t.cell r c =
        if 7 ≤ v ∧ ((r ≤ 5 ∧ n - 11 ≤ c ∧ c ≤ n - 9) ∨ (c ≤ 5 ∧ n - 11 ≤ r ∧ r ≤ n - 9)) then ⟨false, true⟩
        else s.cell r c

/-- SP.DARK places the dark module at (s - 8, 8); every other cell stays (44_structural_placer R214, R215). -/
def Obligations.SpDarkResult : Prop :=
  ∀ (s : State) (v : Nat), 1 ≤ v → v ≤ 40 → s.matSize.toNat = 4 * v + 17 →
    ∃ t, exec .spDark s = .next t ∧ t.done = true ∧ t.busy = false ∧ t.err = s.err ∧
      ∀ r c, r < 4 * v + 17 → c < 4 * v + 17 →
        t.cell r c = if r = 4 * v + 9 ∧ c = 8 then ⟨true, true⟩ else s.cell r c

/-- SP.PLACE is MAT.INIT of the version's side followed by the six placers in the order finder, timing, alignment, format, version, dark;
a version outside 1 to 40 faults GEOMETRY 2 (44_structural_placer R216). -/
def Obligations.SpPlaceResult : Prop :=
  ∀ (n : Nat) (s : State), n < 4096 →
    ((n < 1 ∨ 40 < n) → exec (.spPlace n) s = .next (s.faultedWith 6 (0x02000000 + BitVec.ofNat 32 n))) ∧
    (1 ≤ n → n ≤ 40 → ∃ t, exec (.spPlace n) s = .next t ∧ t.done = true ∧ t.busy = false ∧ t.matSize.toNat = 4 * n + 17 ∧
      runCommands [.matInit (4 * n + 17), .spFinder, .spTiming, .spAlign, .spFormat, .spVersion, .spDark] s = some t)

/-- The order of the six placers does not matter (44_structural_placer R217): after MAT.INIT of a symbol's side, in any order, they give
the matrix of SP.PLACE. -/
def Obligations.StructureOrderIrrelevant : Prop :=
  ∀ (n : Nat) (s : State) (order : List Instr), 1 ≤ n → n ≤ 40 →
    order.Perm [.spFinder, .spTiming, .spAlign, .spFormat, .spVersion, .spDark] →
    ∃ t u, exec (.spPlace n) s = .next t ∧ runCommands (.matInit (4 * n + 17) :: order) s = some u ∧
      u.matSize = t.matSize ∧ ∀ r c, r < 4 * n + 17 → c < 4 * n + 17 → u.cell r c = t.cell r c

/-- The six placers fault RANGE 2 without a matrix, then GEOMETRY 1 with the side as the detail when it is not a symbol size
(44_structural_placer R200). -/
def Obligations.GeometryFaults : Prop :=
  ∀ (i : Instr) (s : State),
    (i = .spFinder ∨ i = .spTiming ∨ i = .spAlign ∨ i = .spFormat ∨ i = .spVersion ∨ i = .spDark) →
    (s.matSize.toNat = 0 → exec i s = .next (s.faultedWith 4 0x02000000)) ∧
    (s.matSize.toNat ≠ 0 → (s.matSize.toNat < 21 ∨ (s.matSize.toNat - 17) % 4 ≠ 0) →
      exec i s = .next (s.faultedWith 6 (0x01000000 + s.matSize.setWidth 32)))

/-! ### Data placer -/

/-- DP.ZIGZAG writes bit k of the stream, most significant bit of each codeword first and light after the last, into cell k of the
zigzag order, leaves those cells free, and changes no other cell (45_data_placer R240, R242). -/
def Obligations.ZigzagResult : Prop :=
  ∀ (s : State) (cw : List Byte), s.matSize.toNat ≠ 0 → s.Holds .cwOut cw → cw.length = s.cwLen.toNat →
    let cells := zigzag s.grid s.matSize.toNat
    8 * cw.length ≤ cells.length →
    ∃ t, exec .dpZigzag s = .next t ∧ t.done = true ∧ t.busy = false ∧ t.err = s.err ∧
      (∀ k, k < cells.length → t.cell (cells.getD k (0, 0)).1 (cells.getD k (0, 0)).2 =
        ⟨if k < 8 * cw.length then (cw.getD (k / 8) 0).getLsbD (7 - k % 8) else false, false⟩) ∧
      (∀ r c, c < 256 → (r, c) ∉ cells → t.cell r c = s.cell r c)

/-- The zigzag order visits each cell at most once, only free cells, and every free cell of the columns R244 names: for odd sides from 7
all but column 6, for odd sides to 5 all but column 0, for even sides all; and it visits them in the order of R241: strip by strip of
two columns from the right edge, upward and downward in turn, the right column of a row before the left (45_data_placer R241, R243,
R244). -/
def Obligations.ZigzagOrderCovers : Prop :=
  ∀ (g : Grid) (n : Nat), 1 ≤ n → n ≤ 177 →
    (zigzag g n).Nodup ∧
    (∀ r c, (r, c) ∈ zigzag g n ↔
      r < n ∧ c < n ∧ (g.cell r c).reserved = false ∧ (n % 2 = 1 → 7 ≤ n → c ≠ 6) ∧ (n % 2 = 1 → n ≤ 5 → c ≠ 0)) ∧
    (zigzag g n).Pairwise (fun p q => visitPlace n p < visitPlace n q)

/-- DP.ZIGZAG faults RANGE 2 without a matrix, then LENGTH 5 with CW_LEN as the detail when the stream has more bits than the order has
cells (45_data_placer R242). -/
def Obligations.ZigzagFaults : Prop :=
  ∀ s : State,
    (s.matSize.toNat = 0 → exec .dpZigzag s = .next (s.faultedWith 4 0x02000000)) ∧
    (s.matSize.toNat ≠ 0 → (zigzag s.grid s.matSize.toNat).length < 8 * s.cwLen.toNat →
      exec .dpZigzag s = .next (s.faultedWith 5 (0x05000000 + s.cwLen.setWidth 32)))

/-! ### Whole-machine rules -/

/-- A command that faults writes ERR, CAUSE and INFO, clears BUSY, and changes nothing else (60_exceptions R301, R305). -/
def Obligations.FaultedCommandWritesNothing : Prop :=
  ∀ (i : Instr) (s t : State), exec i s = .next t → s.err = false → t.err = true → t = s.faultedWith t.cause t.info

/-- Every command answers a next state (60_exceptions R300, R310): it completes with DONE set and BUSY cleared and the fault registers as
they were, or faults, or reads a byte with no value, which is recorded and has no other effect (log entry 10). -/
def Obligations.EveryCommandEnds : Prop :=
  ∀ (i : Instr) (s : State), ∃ t, exec i s = .next t ∧
    ((t.done = true ∧ t.busy = false ∧ t.err = s.err ∧ t.cause = s.cause ∧ t.info = s.info ∧ t.faults = s.faults) ∨
     t = s.faultedWith t.cause t.info ∨
     t = { s with faults := s.faults ++ [.uninitRead] })

/-- No command but MAT.INIT and SP.PLACE clears a reserved flag, and DP.ZIGZAG and MAT.XOR change none (10_state R47,
43_bit_matrix R187, 45_data_placer R242). -/
def Obligations.ReservedFlagsStick : Prop :=
  ∀ (i : Instr) (s t : State), exec i s = .next t → (∀ n, i ≠ .matInit n) → (∀ n, i ≠ .spPlace n) →
    ∀ r c, ((s.cell r c).reserved = true → (t.cell r c).reserved = true) ∧
      ((i = .dpZigzag ∨ ∃ r' c' v, i = .matXor r' c' v) → (t.cell r c).reserved = (s.cell r c).reserved)

/-- The invariant holds at reset. -/
def Obligations.InvariantAtReset : Prop := State.reset.Inv

/-- Every step keeps the invariant: the canonical form of the buffers and the matrix, the agreement of the status registers (10_state R25,
R26, 60_exceptions R302, R306), the registers' ranges (R31, R34, R35) and the RS encoder state (10_state R43). -/
def Obligations.StepKeepsInvariant : Prop :=
  ∀ s t : State, s.Inv → step s = .next t → t.Inv

/-- RS_VALID is cleared only by reset (10_state R32). -/
def Obligations.OnlyResetClearsRsValid : Prop :=
  ∀ s t : State, step s = .next t → s.rsValid = true → t.rsValid = false →
    s.engineTurn = false ∧ ∃ rest, s.script = .reset :: rest

/-! ### Host port -/

/-- R24: a host write to STATUS clears DONE, ERR with CAUSE and INFO, and OVR where its bits 1, 2 and 3 are 1, in either phase, and
changes nothing else. -/
def Obligations.StatusWriteClears : Prop :=
  ∀ (s : State) (w : Word), s.memWrite 0x0001 w = { s with
    done := s.done && !w.getLsbD 1
    err := s.err && !w.getLsbD 2
    cause := if w.getLsbD 2 then 0 else s.cause
    info := if w.getLsbD 2 then 0 else s.info
    ovr := s.ovr && !w.getLsbD 3 }

/-- R28: a CMD write sets OVR and records CMD_WHILE_BUSY while BUSY, does nothing while ERR, and else is accepted: CMD holds the word, DONE
is 0, BUSY is 1, and nothing else of the engine changes (the latency before the engine step is free). -/
def Obligations.CmdWriteRule : Prop :=
  ∀ (s : State) (w : Word),
    (s.busy = true → s.memWrite 0x0004 w = { s with ovr := true, faults := s.faults ++ [.cmdWhileBusy] }) ∧
    (s.busy = false → s.err = true → s.memWrite 0x0004 w = s) ∧
    (s.busy = false → s.err = false → ∃ lat latIndex, s.memWrite 0x0004 w =
      { s with cmd := w, done := false, busy := true, lat := lat, latIndex := latIndex })

/-- R36, R64: while idle, a write to a read-only register or window changes nothing; and (10_state, section 2) a read of each register
returns its fields at their places, every other bit 0, and a write to CW_LEN stores w[11:0], which a read returns. -/
def Obligations.RegisterReadsAndWrites : Prop :=
  ∀ (s : State) (w : Word), s.busy = false →
    s.memRead 0x0000 = .data 0x51520107 ∧
    s.memRead 0x0001 = .data (BitVec.ofNat 32 (s.busy.toNat + 2 * s.done.toNat + 4 * s.err.toNat + 8 * s.ovr.toNat +
      16 * s.rsValid.toNat)) ∧
    s.memRead 0x0002 = .data (BitVec.ofNat 32 s.cause.toNat) ∧
    s.memRead 0x0003 = .data s.info ∧
    s.memRead 0x0004 = .data s.cmd ∧
    s.memRead 0x0005 = .data s.result ∧
    s.memRead 0x0006 = .data (BitVec.ofNat 32 s.rLen.toNat) ∧
    s.memRead 0x0007 = .data (BitVec.ofNat 32 s.rsDeg.toNat) ∧
    s.memRead 0x0008 = .data (BitVec.ofNat 32 s.cwLen.toNat) ∧
    s.memRead 0x0009 = .data (BitVec.ofNat 32 s.matSize.toNat) ∧
    s.memRead 0x000A = .data (BitVec.ofNat 32 s.alignN.toNat) ∧
    (∀ k : Fin 7, s.memRead (0x0010 + BitVec.ofNat 16 k.val) = .data (BitVec.ofNat 32 (s.alignC[k]).toNat)) ∧
    s.memWrite 0x0008 w = { s with cwLen := w.setWidth 12 } ∧
    (s.memWrite 0x0008 w).memRead 0x0008 = .data (w &&& 0xFFF) ∧
    ∀ a : Addr,
      (a.toNat = 0 ∨ a.toNat = 2 ∨ a.toNat = 3 ∨ a.toNat = 5 ∨ a.toNat = 6 ∨ a.toNat = 7 ∨ a.toNat = 9 ∨ a.toNat = 10 ∨
        (0x10 ≤ a.toNat ∧ a.toNat ≤ 0x16) ∨ (0x1200 ≤ a.toNat ∧ a.toNat ≤ 0x13FF)) →
      s.memWrite a w = s

/-- R63: while idle, a read of a window word that has a value returns the byte zero-extended; a write to a read-write window stores
w[7:0] as the byte, changes no other byte and nothing but memory, reads back as w[7:0], and every other address reads as before. -/
def Obligations.WindowWriteThenRead : Prop :=
  ∀ (s : State) (a : Addr) (w : Word), s.busy = false →
    (∀ x : Byte, ((0x1000 ≤ a.toNat ∧ a.toNat ≤ 0x13FF) ∨ (0x2000 ≤ a.toNat ∧ a.toNat ≤ 0x3FFF)) →
      s.mem.read a.toNat = some x → s.memRead a = .data (x.setWidth 32)) ∧
    (((0x1000 ≤ a.toNat ∧ a.toNat ≤ 0x11FF) ∨ (0x2000 ≤ a.toNat ∧ a.toNat ≤ 0x3FFF)) →
      s.memWrite a w = { s with mem := (s.memWrite a w).mem } ∧
      (s.memWrite a w).mem.read a.toNat = some (w.setWidth 8) ∧
      (∀ j, j ≠ a.toNat → (s.memWrite a w).mem.read j = s.mem.read j) ∧
      (s.memWrite a w).memRead a = .data (w &&& 0xFF) ∧
      ∀ a' : Addr, a' ≠ a → (s.memWrite a w).memRead a' = s.memRead a')

/-- An access outside the address map is a bus error that changes no engine state; no read inside it is one, and no write inside it
records one: it records nothing, or while BUSY one of the two faults of that phase (20_memory, sections 1 and 2; 60_exceptions,
sections 6 and 7). That an unmapped access is BUS_ERROR also while BUSY, not BUSY_ACCESS, is the model's choice (log entry 5). -/
def Obligations.UnmappedAccessIsBusError : Prop :=
  ∀ (s : State) (a : Addr) (w : Word),
    let mapped := a.toNat ≤ 0x0A ∨ (0x10 ≤ a.toNat ∧ a.toNat ≤ 0x16) ∨ (0x1000 ≤ a.toNat ∧ a.toNat ≤ 0x13FF) ∨
      (0x2000 ≤ a.toNat ∧ a.toNat ≤ 0x3FFF)
    (¬mapped → s.memRead a = .modelFault .busError ∧ s.memWrite a w = { s with faults := s.faults ++ [.busError] }) ∧
    (mapped → s.memRead a ≠ .modelFault .busError ∧
      ((s.memWrite a w).faults = s.faults ∨
        (s.busy = true ∧ ((s.memWrite a w).faults = s.faults ++ [.busyAccess] ∨
          (s.memWrite a w).faults = s.faults ++ [.cmdWhileBusy]))))

/-- While BUSY a read of ID, STATUS, CAUSE, INFO or CMD returns the register's word; every other read of a mapped address, and every
write to one but to STATUS and CMD, is recorded as BUSY_ACCESS and has no effect (20_memory, section 5; 70_reset_and_hazards,
section 3). That a window byte with no value is BUSY_ACCESS too, not UNINIT_READ, and that a CMD write is not BUSY_ACCESS, is the
model's choice (log entry 5). -/
def Obligations.BusyAccessHazard : Prop :=
  ∀ (s : State) (a : Addr) (w : Word), s.busy = true →
    s.memRead 0x0000 = .data 0x51520107 ∧
    s.memRead 0x0001 = .data (BitVec.ofNat 32 (1 + 2 * s.done.toNat + 4 * s.err.toNat + 8 * s.ovr.toNat +
      16 * s.rsValid.toNat)) ∧
    s.memRead 0x0002 = .data (BitVec.ofNat 32 s.cause.toNat) ∧
    s.memRead 0x0003 = .data s.info ∧
    s.memRead 0x0004 = .data s.cmd ∧
    (((5 ≤ a.toNat ∧ a.toNat ≤ 0x0A) ∨ (0x10 ≤ a.toNat ∧ a.toNat ≤ 0x16) ∨ (0x1000 ≤ a.toNat ∧ a.toNat ≤ 0x13FF) ∨
        (0x2000 ≤ a.toNat ∧ a.toNat ≤ 0x3FFF)) → s.memRead a = .modelFault .busyAccess) ∧
    ((a.toNat = 0 ∨ a.toNat = 2 ∨ a.toNat = 3 ∨ (5 ≤ a.toNat ∧ a.toNat ≤ 0x0A) ∨ (0x10 ≤ a.toNat ∧ a.toNat ≤ 0x16) ∨
        (0x1000 ≤ a.toNat ∧ a.toNat ≤ 0x13FF) ∨ (0x2000 ≤ a.toNat ∧ a.toNat ≤ 0x3FFF)) →
      s.memWrite a w = { s with faults := s.faults ++ [.busyAccess] })

/-- A read of a byte that has no value is UNINIT_READ, by the host while idle and by each command whose checks before the read pass
(10_state, section 3; 60_exceptions, sections 3 and 6). That the command's step has no other effect, BUSY kept at 1 where the engine
step's last line clears it, is the model's choice (log entry 10). -/
def Obligations.UninitReadIsRecorded : Prop :=
  ∀ s : State,
    let recorded : State := { s with faults := s.faults ++ [.uninitRead] }
    let unset := fun (b : Buffer) (n : Nat) => ∃ i, i < n ∧ s.mem.read (b.base + i) = none
    (∀ (b : Buffer) (i : Nat) (a : Addr), s.busy = false → i < b.size → a.toNat = b.base + i →
      s.mem.read (b.base + i) = none → s.memRead a = .modelFault .uninitRead) ∧
    (∀ p q, 1 ≤ p → p ≤ 256 → 1 ≤ q → q ≤ 256 → p + q - 1 ≤ 256 → (unset .polyA p ∨ unset .polyB q) →
      exec (.polyMul p q) s = .next recorded) ∧
    (∀ p q, p ≤ 256 → 1 ≤ q → q ≤ 256 →
      (s.mem.read Buffer.polyB.base = none ∨
        (s.mem.read Buffer.polyB.base = some 1 ∧ (unset .polyA p ∨ unset .polyB q))) →
      exec (.polyMod p q) s = .next recorded) ∧
    (∀ n, s.rsValid = true → n ≤ 256 → unset .polyA n → exec (.rsEnc n) s = .next recorded) ∧
    (∀ B e T, 1 ≤ B → B * e ≤ T → unset .cwIn (T - B * e) → exec (.ilvBuild B e T) s = .next recorded) ∧
    (s.matSize.toNat ≠ 0 → 8 * s.cwLen.toNat ≤ (zigzag s.grid s.matSize.toNat).length →
      unset .cwOut s.cwLen.toNat → exec .dpZigzag s = .next recorded)
end

