-- ==== Sys2Proof/Laws/GaloisField.lean ====
section
/-! SUPPORT. The table facts of 40_galois_field that the field laws rest on: EXP and LOG undo each other, EXP is cyclic, and one
step up in EXP is a shift reduced by 0x11d. -/

namespace Sys2Proof.Machine

/-- One turn of the loop of R120 on a byte. -/
def timesAlpha (x : Byte) : Byte := (x <<< 1) ^^^ (if x.getLsbD 7 then 0x1d else 0)

/-- Multiplying by alpha is linear over XOR. -/
theorem timesAlpha_xor (x y : Byte) : timesAlpha (x ^^^ y) = timesAlpha x ^^^ timesAlpha y := by
  have h : ∀ b c : Bool, (if (b ^^ c) = true then (0x1d : Byte) else 0) = (if b = true then 0x1d else 0) ^^^ (if c = true then 0x1d else 0) := by
    decide
  unfold timesAlpha
  rw [BitVec.shiftLeft_xor_distrib, BitVec.getLsbD_xor, h]
  ac_rfl

theorem gfexp_mod (i : Nat) : gfexp (i % 255) = gfexp i := by
  unfold gfexp; rw [Nat.mod_mod]

/-- EXP is cyclic (R121). -/
theorem gfexp_add_255 (i : Nat) : gfexp (i + 255) = gfexp i := by
  unfold gfexp; rw [Nat.add_mod_right]

theorem gfexp_succ_table : ∀ k, k < 255 → gfexp (k + 1) = timesAlpha (gfexp k) := by decide +kernel

/-- One step up in EXP is one turn of the loop (R120). -/
theorem gfexp_succ (i : Nat) : gfexp (i + 1) = timesAlpha (gfexp i) := by
  rw [← gfexp_mod (i + 1), ← gfexp_mod i, Nat.add_mod, ← gfexp_succ_table _ (Nat.mod_lt i (by decide)), ← gfexp_mod (i % 255 + 1)]

/-- EXP undoes LOG (R124). -/
theorem gfexp_gflog : ∀ x : Byte, x ≠ 0 → gfexp (gflog x) = x := by decide +kernel

theorem gflog_lt : ∀ x : Byte, gflog x < 255 := by decide +kernel

/-- LOG undoes EXP (R124). -/
theorem gflog_gfexp_table : ∀ i, i < 255 → gflog (gfexp i) = i := by decide +kernel

theorem gflog_gfexp (i : Nat) : gflog (gfexp i) = i % 255 := by
  rw [← gfexp_mod]; exact gflog_gfexp_table _ (Nat.mod_lt i (by decide))

theorem gfexp_ne_zero_table : ∀ i, i < 255 → gfexp i ≠ 0 := by decide +kernel

/-- A power is never 0 (R121). -/
theorem gfexp_ne_zero (i : Nat) : gfexp i ≠ 0 := by
  rw [← gfexp_mod]; exact gfexp_ne_zero_table _ (Nat.mod_lt i (by decide))

@[simp] theorem zero_gfmul (b : Byte) : gfmul 0 b = 0 := if_pos (.inl rfl)

@[simp] theorem gfmul_zero (a : Byte) : gfmul a 0 = 0 := if_pos (.inr rfl)

theorem gfmul_of_ne {a b : Byte} (ha : a ≠ 0) (hb : b ≠ 0) : gfmul a b = gfexp (gflog a + gflog b) :=
  if_neg (fun h => h.elim ha hb)

/-- Powers multiply by adding exponents (R123). -/
theorem gfmul_gfexp (i j : Nat) : gfmul (gfexp i) (gfexp j) = gfexp (i + j) := by
  rw [gfmul_of_ne (gfexp_ne_zero i) (gfexp_ne_zero j), gflog_gfexp, gflog_gfexp, ← gfexp_mod, ← Nat.add_mod, gfexp_mod]

/-- Multiplying by the next power is multiplying by alpha once more. -/
theorem gfmul_gfexp_succ (i : Nat) (x : Byte) : gfmul (gfexp (i + 1)) x = timesAlpha (gfmul (gfexp i) x) := by
  by_cases hx : x = 0
  · subst hx; rw [gfmul_zero, gfmul_zero]; rfl
  · rw [← gfexp_gflog x hx, gfmul_gfexp, gfmul_gfexp, Nat.add_right_comm, gfexp_succ]

theorem gfmul_one (a : Byte) : gfmul a 1 = a := by
  by_cases ha : a = 0
  · rw [ha, zero_gfmul]
  · rw [gfmul_of_ne ha (by decide)]
    exact gfexp_gflog a ha

theorem one_gfmul (a : Byte) : gfmul 1 a = a := by
  by_cases ha : a = 0
  · rw [ha, gfmul_zero]
  · rw [gfmul_of_ne (by decide) ha, show gflog 1 = 0 from rfl, Nat.zero_add]
    exact gfexp_gflog a ha

end Sys2Proof.Machine
end

