-- ==== Sys2Proof/Laws/Sparse.lean ====
section
/-! SUPPORT. The laws of sparse data: a lookup after an insert or an erase, and that both keep the keys rising. -/

namespace Sys2Proof.Machine.Sparse

variable {α : Type}

@[simp] theorem lookup_nil (k : Nat) : lookup ([] : List (Nat × α)) k = none := rfl

@[simp] theorem lookup_insert_same (k : Nat) (v : α) (l : List (Nat × α)) : lookup (insert k v l) k = some v := by
  induction l with
  | nil => simp [insert, lookup]
  | cons e rest ih =>
    obtain ⟨k', v'⟩ := e
    simp only [insert]
    split
    · simp [lookup]
    · split
      · simp [lookup]
      · simp [lookup, *]

theorem lookup_insert_other {k j : Nat} (v : α) (l : List (Nat × α)) (h : j ≠ k) :
    lookup (insert k v l) j = lookup l j := by
  induction l with
  | nil => simp [insert, lookup, h.symm]
  | cons e rest ih =>
    obtain ⟨k', v'⟩ := e
    simp only [insert]
    split
    · simp [lookup, h.symm]
    · split
      · subst_vars; simp [lookup, h.symm]
      · simp only [lookup, ih]

@[simp] theorem lookup_erase_same (k : Nat) (l : List (Nat × α)) : lookup (erase k l) k = none := by
  induction l with
  | nil => rfl
  | cons e rest ih =>
    obtain ⟨k', v'⟩ := e
    simp only [erase]
    split
    · exact ih
    · simp [lookup, *]

theorem lookup_erase_other {k j : Nat} (l : List (Nat × α)) (h : j ≠ k) :
    lookup (erase k l) j = lookup l j := by
  induction l with
  | nil => rfl
  | cons e rest ih =>
    obtain ⟨k', v'⟩ := e
    simp only [erase]
    split
    · subst_vars; simp [lookup, ih, h.symm]
    · simp only [lookup, ih]

/-- A larger lower bound is a stronger demand. -/
theorem risingFrom_mono {lo lo' : Nat} (l : List (Nat × α)) (h : lo ≤ lo') (hl : risingFrom (some lo') l = true) :
    risingFrom (some lo) l = true := by
  cases l with
  | nil => rfl
  | cons e rest =>
    obtain ⟨k, v⟩ := e
    simp only [risingFrom, Bool.and_eq_true, decide_eq_true_eq] at hl ⊢
    exact ⟨by omega, hl.2⟩

theorem risingFrom_none_of_some {lo : Nat} (l : List (Nat × α)) (hl : risingFrom (some lo) l = true) :
    risingFrom none l = true := by
  cases l with
  | nil => rfl
  | cons e rest => simp only [risingFrom, Bool.and_eq_true] at hl ⊢; exact hl.2

theorem risingFrom_insert {lo k : Nat} (v : α) (l : List (Nat × α)) (hk : lo < k) (hl : risingFrom (some lo) l = true) :
    risingFrom (some lo) (insert k v l) = true := by
  induction l generalizing lo with
  | nil => simp [insert, risingFrom, hk]
  | cons e rest ih =>
    obtain ⟨k', v'⟩ := e
    simp only [risingFrom, Bool.and_eq_true, decide_eq_true_eq] at hl
    simp only [insert]
    split
    · simp [risingFrom, *]
    · split
      · subst_vars; simp [risingFrom, *]
      · simp only [risingFrom, Bool.and_eq_true, decide_eq_true_eq]
        exact ⟨hl.1, ih (by omega) hl.2⟩

theorem risingFrom_erase {lo k : Nat} (l : List (Nat × α)) (hl : risingFrom (some lo) l = true) :
    risingFrom (some lo) (erase k l) = true := by
  induction l generalizing lo with
  | nil => rfl
  | cons e rest ih =>
    obtain ⟨k', v'⟩ := e
    simp only [risingFrom, Bool.and_eq_true, decide_eq_true_eq] at hl
    simp only [erase]
    split
    · exact ih (risingFrom_mono rest (by omega) hl.2)
    · simp only [risingFrom, Bool.and_eq_true, decide_eq_true_eq]
      exact ⟨hl.1, ih hl.2⟩

theorem rising_insert (k : Nat) (v : α) (l : List (Nat × α)) (hl : rising l = true) : rising (insert k v l) = true := by
  cases l with
  | nil => rfl
  | cons e rest =>
    obtain ⟨k', v'⟩ := e
    simp only [rising, risingFrom] at hl
    simp only [insert]
    split
    · simp [rising, risingFrom, *]
    · split
      · subst_vars; simpa [rising, risingFrom] using hl
      · exact risingFrom_insert v rest (by omega) hl

theorem rising_erase (k : Nat) (l : List (Nat × α)) (hl : rising l = true) : rising (erase k l) = true := by
  cases l with
  | nil => rfl
  | cons e rest =>
    obtain ⟨k', v'⟩ := e
    simp only [rising, risingFrom] at hl
    simp only [erase]
    split
    · exact risingFrom_none_of_some _ (risingFrom_erase rest hl)
    · exact risingFrom_erase rest hl

/-- Whatever every listed entry and the new one satisfy, every entry after an insert satisfies. -/
theorem all_insert (p : Nat × α → Bool) (k : Nat) (v : α) (l : List (Nat × α)) (hv : p (k, v) = true)
    (hl : l.all p = true) : (insert k v l).all p = true := by
  induction l with
  | nil => simp [insert, hv]
  | cons e rest ih =>
    obtain ⟨k', v'⟩ := e
    simp only [List.all_cons, Bool.and_eq_true] at hl
    simp only [insert]
    split
    · simp [hv, hl.1, hl.2]
    · split
      · simp [hv, hl.2]
      · simp [hl.1, ih hl.2]

/-- Whatever every listed entry satisfies, every entry after an erase satisfies. -/
theorem all_erase (p : Nat × α → Bool) (k : Nat) (l : List (Nat × α)) (hl : l.all p = true) : (erase k l).all p = true := by
  induction l with
  | nil => rfl
  | cons e rest ih =>
    obtain ⟨k', v'⟩ := e
    simp only [List.all_cons, Bool.and_eq_true] at hl
    simp only [erase]
    split
    · exact ih hl.2
    · simp [hl.1, ih hl.2]

end Sys2Proof.Machine.Sparse
end

