-- ==== Sys2Proof/Laws/Grid.lean ====
section
/-! SUPPORT. The laws of the module matrix: a cell after a write, the frame of a write, and that every operation keeps the
canonical form. -/

namespace Sys2Proof.Machine

/-- Columns below 256 keep the keys of distinct cells apart. -/
theorem cellKey_inj {r c r' c' : Nat} (hc : c < 256) (hc' : c' < 256) (h : cellKey r c = cellKey r' c') : r = r' ∧ c = c' := by
  unfold cellKey at h
  omega

@[simp] theorem Grid.cell_nil (r c : Nat) : Grid.cell [] r c = ⟨false, false⟩ := rfl

@[simp] theorem Grid.cell_put_same (g : Grid) (r c : Nat) (x : Cell) : (g.put r c x).cell r c = x := by
  unfold Grid.put Grid.cell
  split <;> simp [*]

theorem Grid.cell_put_other (g : Grid) {r c r' c' : Nat} (x : Cell) (h : cellKey r' c' ≠ cellKey r c) :
    (g.put r c x).cell r' c' = g.cell r' c' := by
  unfold Grid.put Grid.cell
  split
  · rw [Sparse.lookup_erase_other g h]
  · rw [Sparse.lookup_insert_other x g h]

@[simp] theorem Grid.cell_place_same (g : Grid) (r c : Nat) (v : Bool) : (g.place r c v).cell r c = ⟨v, true⟩ := by
  simp [Grid.place]

theorem Grid.cell_place_other (g : Grid) {r c r' c' : Nat} (v : Bool) (h : cellKey r' c' ≠ cellKey r c) :
    (g.place r c v).cell r' c' = g.cell r' c' := Grid.cell_put_other g _ h

@[simp] theorem Grid.cell_setModule_same (g : Grid) (r c : Nat) (v : Bool) :
    (g.setModule r c v).cell r c = ⟨v, (g.cell r c).reserved⟩ := by
  simp [Grid.setModule]

theorem Grid.cell_setModule_other (g : Grid) {r c r' c' : Nat} (v : Bool) (h : cellKey r' c' ≠ cellKey r c) :
    (g.setModule r c v).cell r' c' = g.cell r' c' := Grid.cell_put_other g _ h

/-- Setting a module value never changes a reserved flag, of this cell or another. -/
@[simp] theorem Grid.reserved_setModule (g : Grid) (r c r' c' : Nat) (v : Bool) :
    ((g.setModule r c v).cell r' c').reserved = (g.cell r' c').reserved := by
  by_cases h : cellKey r' c' = cellKey r c
  · have : ∀ g' : Grid, g'.cell r' c' = g'.cell r c := fun g' => by simp only [Grid.cell, h]
    rw [this, this, Grid.cell_setModule_same]
  · rw [Grid.cell_setModule_other g v h]

/-- A placement never clears a reserved flag. -/
theorem Grid.reserved_place (g : Grid) (r c r' c' : Nat) (v : Bool) (h : (g.cell r' c').reserved = true) :
    ((g.place r c v).cell r' c').reserved = true := by
  by_cases hk : cellKey r' c' = cellKey r c
  · have : ∀ g' : Grid, g'.cell r' c' = g'.cell r c := fun g' => by simp only [Grid.cell, hk]
    rw [this, Grid.cell_place_same]
  · rw [Grid.cell_place_other g v hk, h]

theorem Grid.wf_put (g : Grid) (r c : Nat) (x : Cell) (hr : r < 177) (hc : c < 177) (hg : g.wf = true) :
    (g.put r c x).wf = true := by
  simp only [Grid.wf, Bool.and_eq_true] at hg ⊢
  unfold Grid.put
  split
  · exact ⟨Sparse.rising_erase _ g hg.1, Sparse.all_erase _ _ g hg.2⟩
  · rename_i hx
    refine ⟨Sparse.rising_insert _ x g hg.1, Sparse.all_insert _ _ x g ?_ hg.2⟩
    have h1 : cellKey r c / 256 < 177 := by unfold cellKey; omega
    have h2 : cellKey r c % 256 < 177 := by unfold cellKey; omega
    simp [Config.matMax, h1, h2, hx]

theorem Grid.wf_place (g : Grid) (r c : Nat) (v : Bool) (hr : r < 177) (hc : c < 177) (hg : g.wf = true) :
    (g.place r c v).wf = true := Grid.wf_put g r c _ hr hc hg

theorem Grid.wf_setModule (g : Grid) (r c : Nat) (v : Bool) (hr : r < 177) (hc : c < 177) (hg : g.wf = true) :
    (g.setModule r c v).wf = true := Grid.wf_put g r c _ hr hc hg

theorem Grid.placeAll_append (g : Grid) (ps qs : List Placement) :
    g.placeAll (ps ++ qs) = (g.placeAll ps).placeAll qs := by
  simp [Grid.placeAll, List.foldl_append]

theorem Grid.wf_placeAll (g : Grid) (ps : List Placement) (hp : ∀ p ∈ ps, p.row < 177 ∧ p.col < 177) (hg : g.wf = true) :
    (g.placeAll ps).wf = true := by
  induction ps generalizing g with
  | nil => exact hg
  | cons p ps ih =>
    have h := hp p (by simp)
    exact ih (g.place p.row p.col p.dark) (fun q hq => hp q (by simp [hq])) (Grid.wf_place g _ _ _ h.1 h.2 hg)

/-- Placements change no cell that none of them names. -/
theorem Grid.cell_placeAll_other (g : Grid) (ps : List Placement) (r c : Nat)
    (h : ∀ p ∈ ps, cellKey r c ≠ cellKey p.row p.col) : (g.placeAll ps).cell r c = g.cell r c := by
  induction ps generalizing g with
  | nil => rfl
  | cons p ps ih =>
    rw [show g.placeAll (p :: ps) = (g.place p.row p.col p.dark).placeAll ps from rfl,
      ih _ fun q hq => h q (by simp [hq])]
    exact Grid.cell_place_other g _ (h p (by simp))

/-- A cell that some placement names, all of them with the same value, holds it and is reserved. -/
theorem Grid.cell_placeAll_same (g : Grid) (ps : List Placement) (r c : Nat) (v : Bool)
    (hex : ∃ p ∈ ps, cellKey p.row p.col = cellKey r c)
    (hall : ∀ p ∈ ps, cellKey p.row p.col = cellKey r c → p.dark = v) : (g.placeAll ps).cell r c = ⟨v, true⟩ := by
  induction ps generalizing g with
  | nil => obtain ⟨p, hp, _⟩ := hex; cases hp
  | cons p ps ih =>
    rw [show g.placeAll (p :: ps) = (g.place p.row p.col p.dark).placeAll ps from rfl]
    by_cases hin : ∃ q ∈ ps, cellKey q.row q.col = cellKey r c
    · exact ih _ hin fun q hq => hall q (by simp [hq])
    · have hp : cellKey p.row p.col = cellKey r c := by
        obtain ⟨q, hq, hk⟩ := hex
        rcases List.mem_cons.mp hq with rfl | hq
        · exact hk
        · exact absurd ⟨q, hq, hk⟩ hin
      rw [Grid.cell_placeAll_other _ ps r c fun q hq hk => hin ⟨q, hq, hk.symm⟩]
      have : ∀ g' : Grid, g'.cell r c = g'.cell p.row p.col := fun g' => by simp only [Grid.cell, hp]
      rw [this, Grid.cell_place_same, hall p (by simp) hp]

end Sys2Proof.Machine
end

