-- ==== Sys2Proof/Laws/Polynomial.lean ====
section
/-! SUPPORT. Lengths and leading coefficients of the polynomial functions of 41_polynomial and 42_reed_solomon. -/

namespace Sys2Proof.Machine

@[simp] theorem zeros_length (n : Nat) : (zeros n).length = n := List.length_replicate

@[simp] theorem scale_length (c : Byte) (p : List Byte) : (scale c p).length = p.length := List.length_map ..

@[simp] theorem xorInto_length (p r : List Byte) : (xorInto p r).length = r.length := by
  induction p generalizing r with
  | nil => rfl
  | cons x p ih =>
    cases r with
    | nil => rfl
    | cons y r => simp [xorInto, ih]

/-- A product has `len(p) + len(q) - 1` coefficients (R140). -/
theorem polymul_length (p q : List Byte) (hq : 1 ≤ q.length) : (polymul p q).length = p.length + q.length - 1 := by
  induction p with
  | nil => simp [polymul]
  | cons x p ih => simp only [polymul, xorInto_length, List.length_cons, ih]; omega

/-- The generator of degree `n` has `n + 1` coefficients (R146). -/
@[simp] theorem polygen_length (n : Nat) : (polygen n).length = n + 1 := by
  induction n with
  | zero => rfl
  | succ i ih => rw [polygen, polymul_length _ _ (by simp), ih]; rfl

/-- A generator polynomial is monic (R146). -/
theorem polygen_headD (n : Nat) : (polygen n).headD 0 = 1 := by
  induction n with
  | zero => rfl
  | succ i ih =>
    cases h : polygen i with
    | nil => rw [h] at ih; exact absurd ih (by decide)
    | cons x p =>
      rw [h] at ih
      have hx : x = 1 := ih
      rw [polygen, h, hx, polymul]
      rfl

theorem strip_length_le (p : List Byte) : (strip p).length ≤ p.length := by
  induction p with
  | nil => simp [strip]
  | cons c p ih =>
    unfold strip
    split
    · exact Nat.le_trans ih (Nat.le_succ _)
    · exact Nat.le_refl _

/-- A stripped polynomial has no leading zero (00_scope R14). -/
theorem strip_headD (p : List Byte) : strip p = [] ∨ (strip p).headD 0 ≠ 0 := by
  induction p with
  | nil => exact .inl rfl
  | cons c p ih =>
    unfold strip
    split
    · exact ih
    · rename_i hc; exact .inr hc

/-- One turn of a monic division shortens the remainder (R145). -/
theorem strip_xorInto_length (r d : List Byte) (hd : d.headD 0 = 1) (hl : d.length ≤ r.length) :
    (strip (xorInto (scale (r.headD 0) d) r)).length < r.length := by
  cases d with
  | nil => exact absurd hd (by decide)
  | cons x d =>
    cases r with
    | nil => simp at hl
    | cons y r =>
      have hx : x = 1 := hd
      have h0 : gfmul x y ^^^ y = 0 := by rw [hx, one_gfmul, BitVec.xor_self]; rfl
      show (strip ((gfmul x y ^^^ y) :: xorInto (scale y d) r)).length < r.length + 1
      rw [h0, strip, if_pos rfl]
      have := strip_length_le (xorInto (scale y d) r)
      rw [xorInto_length] at this
      omega

/-- The division loop ends below the divisor's length (R145). -/
theorem divideLoop_length (fuel : Nat) (r d : List Byte) (hd : d.headD 0 = 1) (hf : r.length ≤ fuel) :
    (divideLoop fuel r d).length < d.length := by
  induction fuel generalizing r with
  | zero =>
    have hpos : 0 < d.length := by
      cases d with
      | nil => exact absurd hd (by decide)
      | cons x d => simp
    rw [divideLoop]; omega
  | succ fuel ih =>
    rw [divideLoop]
    split
    · rename_i hl
      have := strip_xorInto_length r d hd hl
      exact ih _ (by omega)
    · rename_i hl; omega

/-- A remainder is shorter than its monic divisor (R145). -/
theorem polymod_length (a d : List Byte) (hd : d.headD 0 = 1) : (polymod a d).length < d.length :=
  Nat.lt_of_le_of_lt (strip_length_le _) (divideLoop_length _ a d hd (Nat.le_refl _))

/-- The encoder gives exactly as many codewords as the generator's degree (R163). -/
theorem rsenc_length (data g : List Byte) (hg : g.headD 0 = 1) : (rsenc data g).length = g.length - 1 := by
  have := polymod_length (data ++ zeros (g.length - 1)) g hg
  unfold rsenc
  rw [List.length_append, zeros_length]
  omega

end Sys2Proof.Machine
end

