-- ==== Sys2Proof/Laws/Interleaver.lean ====
section
/-! SUPPORT. How long the pieces of a stream are: the runs of the split, the columns, the whole (46_interleaver R260-R266). -/

namespace Sys2Proof.Machine

theorem columns_succ (n : Nat) (blocks : List (List Byte)) :
    columns (n + 1) blocks = columns n blocks ++ blocks.filterMap (fun b => b[n]?) := by
  unfold columns
  rw [List.range_succ, List.flatMap_append, List.flatMap_singleton]

theorem column_length (n : Nat) (blocks : List (List Byte)) :
    (blocks.filterMap (fun b => b[n]?)).length = (blocks.map (fun b => if n < b.length then 1 else 0)).sum := by
  induction blocks with
  | nil => rfl
  | cons b bs ih =>
    rw [List.map_cons, List.sum_cons, ← ih, List.filterMap_cons]
    by_cases h : n < b.length
    · rw [List.getElem?_eq_getElem h, if_pos h, List.length_cons, Nat.add_comm]
    · rw [List.getElem?_eq_none (by omega), if_neg h, Nat.zero_add]

/-- The first `n` columns hold the first `n` codewords of every block, or all it has (R264). -/
theorem columns_length (n : Nat) (blocks : List (List Byte)) :
    (columns n blocks).length = (blocks.map (fun b => min n b.length)).sum := by
  induction n with
  | zero => simp [columns]
  | succ n ih =>
    rw [columns_succ, List.length_append, ih, column_length, ← List.sum_map_add]
    congr 1
    refine List.map_congr_left fun b _ => ?_
    split <;> omega

/-- Each run has its length, when there is enough data (R262). -/
theorem splitRuns_lengths (ls : List Nat) (data : List Byte) (h : ls.sum ≤ data.length) :
    (splitRuns ls data).map List.length = ls := by
  induction ls generalizing data with
  | nil => rfl
  | cons n ns ih =>
    rw [List.sum_cons] at h
    rw [splitRuns, List.map_cons, List.length_take, ih _ (by rw [List.length_drop]; omega)]
    congr 1
    omega

/-- The blocks hold all the data codewords (R260). -/
theorem layout_lengths_sum (B e T : Nat) (hB : 1 ≤ B) : (layout B e T).lengths.sum = T - B * e := by
  have hm := Nat.mod_lt (T - B * e) hB
  have hd := Nat.div_add_mod (T - B * e) B
  unfold layout Layout.lengths
  simp only [List.sum_append, List.sum_replicate, smul_eq_mul]
  generalize (T - B * e) % B = g2 at hm hd ⊢
  generalize (T - B * e) / B = d1 at hd ⊢
  rw [Nat.mul_succ, Nat.sub_mul]
  have := Nat.mul_le_mul_right d1 hm.le
  omega

theorem layout_lengths_length (B e T : Nat) (hB : 1 ≤ B) : (layout B e T).lengths.length = B := by
  have hm := Nat.mod_lt (T - B * e) hB
  unfold layout Layout.lengths
  simp only [List.length_append, List.length_replicate]
  omega

theorem layout_lengths_le (B e T : Nat) : ∀ n ∈ (layout B e T).lengths, n ≤ (layout B e T).d1 + 1 := by
  intro n hn
  unfold Layout.lengths at hn
  rcases List.mem_append.1 hn with h | h
  · rw [(List.mem_replicate.1 h).2]; omega
  · rw [(List.mem_replicate.1 h).2]

/-- The stream has exactly `T` codewords (R266). -/
theorem buildStream_length (B e T : Nat) (data : List Byte) (hB : 1 ≤ B) (hT : B * e ≤ T) (hd : data.length = T - B * e) :
    (buildStream B e T data).length = T := by
  have hs := splitRuns_lengths (layout B e T).lengths data (by rw [layout_lengths_sum B e T hB, hd])
  have hn := congrArg List.length hs
  rw [List.length_map, layout_lengths_length B e T hB] at hn
  unfold buildStream interleave
  dsimp only
  rw [List.length_append, columns_length, columns_length]
  have h1 : (List.map (fun b => min ((layout B e T).d1 + 1) b.length) (splitRuns (layout B e T).lengths data)) =
      (layout B e T).lengths := by
    conv_rhs => rw [← hs]
    refine List.map_congr_left fun b hb => ?_
    have : b.length ∈ (layout B e T).lengths := by rw [← hs]; exact List.mem_map_of_mem hb
    have := layout_lengths_le B e T _ this
    omega
  have h2 : (List.map (fun b => min e b.length)
      (List.map (fun b => rsenc b (polygen e)) (splitRuns (layout B e T).lengths data))) = List.replicate B e := by
    rw [List.map_map, List.eq_replicate_iff]
    refine ⟨by rw [List.length_map, hn], fun x hx => ?_⟩
    obtain ⟨b, -, rfl⟩ := List.mem_map.1 hx
    show min e (rsenc b (polygen e)).length = e
    rw [rsenc_length _ _ (polygen_headD e), polygen_length]
    omega
  rw [h1, h2, layout_lengths_sum B e T hB, List.sum_replicate, smul_eq_mul]
  omega

end Sys2Proof.Machine
end

