-- ==== Sys2Proof/Laws/Memory.lean ====
section
/-! SUPPORT. The laws of the byte buffers: a read after a write, the frame of a write, ranges, and that every memory operation
keeps the canonical form. -/

namespace Sys2Proof.Machine

@[simp] theorem Memory.read_write_same (m : Memory) (a : Nat) (b : Byte) : (m.write a b).read a = some b := by
  unfold Memory.write
  split <;> simp [Memory.read, *]

theorem Memory.read_write_other (m : Memory) {a j : Nat} (b : Byte) (h : j ≠ a) : (m.write a b).read j = m.read j := by
  unfold Memory.write
  split
  · simp only [Memory.read, Sparse.lookup_erase_other m h]
  · simp only [Memory.read, Sparse.lookup_insert_other b m h]

@[simp] theorem Memory.read_nil (a : Nat) : Memory.read [] a = Memory.unlisted a := rfl

/-- A store of a list changes no byte outside it. -/
theorem Memory.read_writeRange_other (m : Memory) (a j : Nat) (bs : List Byte) (h : j < a ∨ a + bs.length ≤ j) :
    (m.writeRange a bs).read j = m.read j := by
  induction bs generalizing a with
  | nil => rfl
  | cons b bs ih =>
    simp only [List.length_cons] at h
    simp only [Memory.writeRange]
    rw [Memory.read_write_other _ _ (by omega), ih (a + 1) (by omega)]

/-- A store of a list puts its bytes in order. -/
theorem Memory.read_writeRange_inside (m : Memory) (a i : Nat) (bs : List Byte) (h : i < bs.length) :
    (m.writeRange a bs).read (a + i) = some (bs.getD i 0) := by
  induction bs generalizing a i with
  | nil => simp at h
  | cons b bs ih =>
    simp only [Memory.writeRange]
    cases i with
    | zero => simp
    | succ i =>
      rw [Memory.read_write_other _ _ (by omega), show a + (i + 1) = a + 1 + i by omega]
      simpa using ih (a + 1) i (by simpa using h)

/-- A range reads as a list exactly when each byte has a value, and the list holds them in order. -/
theorem Memory.readRange_eq_some (m : Memory) (a n : Nat) (bs : List Byte) :
    m.readRange a n = some bs ↔ bs.length = n ∧ ∀ i, i < n → m.read (a + i) = some (bs.getD i 0) := by
  induction n generalizing a bs with
  | zero => cases bs <;> simp [Memory.readRange]
  | succ n ih =>
    simp only [Memory.readRange]
    constructor
    · intro h
      split at h
      · rename_i b bs' hb hbs
        obtain ⟨hlen, hall⟩ := (ih (a + 1) bs').mp hbs
        obtain rfl := Option.some.inj h
        refine ⟨by simp [hlen], fun i hi => ?_⟩
        cases i with
        | zero => simpa using hb
        | succ i => simpa [show a + (i + 1) = a + 1 + i by omega] using hall i (by omega)
      · cases h
    · rintro ⟨hlen, hall⟩
      cases bs with
      | nil => simp at hlen
      | cons b bs =>
        have h0 : m.read a = some b := by simpa using hall 0 (by omega)
        have hr : m.readRange (a + 1) n = some bs := (ih (a + 1) bs).mpr
          ⟨by simpa using hlen, fun i hi => by
            simpa [show a + (i + 1) = a + 1 + i by omega] using hall (i + 1) (by omega)⟩
        simp [h0, hr]

/-- A range has no value exactly when one of its bytes has none. -/
theorem Memory.readRange_eq_none (m : Memory) (a n : Nat) :
    m.readRange a n = none ↔ ∃ i, i < n ∧ m.read (a + i) = none := by
  induction n generalizing a with
  | zero => simp [Memory.readRange]
  | succ n ih =>
    simp only [Memory.readRange]
    constructor
    · intro h
      cases h0 : m.read a with
      | none => exact ⟨0, by omega, by simpa using h0⟩
      | some b =>
        cases hr : m.readRange (a + 1) n with
        | none =>
          obtain ⟨i, hi, hn⟩ := (ih (a + 1)).mp hr
          exact ⟨i + 1, by omega, by rwa [show a + (i + 1) = a + 1 + i by omega]⟩
        | some bs => simp [h0, hr] at h
    · rintro ⟨i, hi, hn⟩
      cases i with
      | zero => simp [show m.read a = none by simpa using hn]
      | succ i =>
        have := (ih (a + 1)).mpr ⟨i, by omega, by rwa [show a + 1 + i = a + (i + 1) by omega]⟩
        rw [this]
        cases m.read a <;> rfl

@[simp] theorem padTo_length (n : Nat) (bs : List Byte) : (padTo n bs).length = n := by
  simp only [padTo, List.length_append, List.length_take, List.length_replicate]
  omega

/-- Cutting or filling a list keeps its bytes below the length, with zeros after them. -/
theorem padTo_getD (n i : Nat) (bs : List Byte) (h : i < n) : (padTo n bs).getD i 0 = bs.getD i 0 := by
  simp only [padTo, List.getD_eq_getElem?_getD, List.getElem?_append, List.length_take, List.getElem?_take,
    List.getElem?_replicate]
  by_cases hi : i < bs.length
  · simp [h, hi]
  · rw [if_neg (by omega), List.getElem?_eq_none (by omega : bs.length ≤ i)]
    split <;> rfl

/-- A byte a write names is a buffer's, so the canonical form stays. -/
theorem Memory.wf_write (m : Memory) (a : Nat) (b : Byte) (ha : (bufferAt a).isSome = true) (hm : m.wf = true) :
    (m.write a b).wf = true := by
  simp only [Memory.wf, Bool.and_eq_true] at hm ⊢
  unfold Memory.write
  split
  · exact ⟨Sparse.rising_erase a m hm.1, Sparse.all_erase _ a m hm.2⟩
  · rename_i hne
    exact ⟨Sparse.rising_insert a b m hm.1, Sparse.all_insert _ a b m (by simp [ha, hne]) hm.2⟩

theorem Memory.wf_writeRange (m : Memory) (a : Nat) (bs : List Byte)
    (ha : ∀ i, i < bs.length → (bufferAt (a + i)).isSome = true) (hm : m.wf = true) : (m.writeRange a bs).wf = true := by
  induction bs generalizing a with
  | nil => exact hm
  | cons b bs ih =>
    simp only [Memory.writeRange]
    refine Memory.wf_write _ _ _ (by simpa using ha 0 (by simp)) (ih (a + 1) fun i hi => ?_)
    rw [show a + 1 + i = a + (i + 1) by omega]
    exact ha (i + 1) (by simpa using hi)

/-- Every index of a buffer has its address in the map (20_memory R61). -/
theorem bufferAt_base (b : Buffer) (i : Nat) (h : i < b.size) : bufferAt (b.base + i) = some (b, i) := by
  cases b <;> simp only [Buffer.size, Config.polyCap, Config.cwCap] at h
  · change bufferAt (0x1000 + i) = _; unfold bufferAt; split_ifs <;> first | omega | simp
  · change bufferAt (0x1100 + i) = _; unfold bufferAt; split_ifs <;> first | omega | simp
  · change bufferAt (0x1200 + i) = _; unfold bufferAt; split_ifs <;> first | omega | simp
  · change bufferAt (0x1300 + i) = _; unfold bufferAt; split_ifs <;> first | omega | simp
  · change bufferAt (0x2000 + i) = _; unfold bufferAt; split_ifs <;> first | omega | simp
  · change bufferAt (0x3000 + i) = _; unfold bufferAt; split_ifs <;> first | omega | simp

/-- The address map's buffer part names addresses of the buffers only. -/
theorem bufferAt_some {a : Nat} {b : Buffer} {i : Nat} (h : bufferAt a = some (b, i)) : a = b.base + i ∧ i < b.size := by
  unfold bufferAt at h
  repeat' split at h
  all_goals first
    | (obtain ⟨rfl, rfl⟩ := Prod.mk.inj (Option.some.inj h); simp only [Buffer.base, Buffer.size, Config.polyCap, Config.cwCap]; omega)
    | cases h

/-- Only the bytes of POLY_R and GEN have a value unlisted (10_state R41). -/
theorem Memory.unlisted_eq (a : Nat) : Memory.unlisted a = if 0x1200 ≤ a ∧ a < 0x1400 then some 0 else none := rfl

end Sys2Proof.Machine
end

