-- ==== Sys2Proof/Laws/State.lean ====
section
/-! SUPPORT. One lemma per field per named update of the state, each true by rfl, so that no later proof unfolds a record update. -/

namespace Sys2Proof.Machine

variable (s : State)

/-! ### faultEntry -/

@[simp] theorem State.faultEntry_busy (k : Cause) (sub detail : Nat) : (s.faultEntry k sub detail).busy = s.busy := rfl
@[simp] theorem State.faultEntry_done (k : Cause) (sub detail : Nat) : (s.faultEntry k sub detail).done = s.done := rfl
@[simp] theorem State.faultEntry_err (k : Cause) (sub detail : Nat) : (s.faultEntry k sub detail).err = true := rfl
@[simp] theorem State.faultEntry_ovr (k : Cause) (sub detail : Nat) : (s.faultEntry k sub detail).ovr = s.ovr := rfl
@[simp] theorem State.faultEntry_rsValid (k : Cause) (sub detail : Nat) : (s.faultEntry k sub detail).rsValid = s.rsValid := rfl
@[simp] theorem State.faultEntry_cause (k : Cause) (sub detail : Nat) : (s.faultEntry k sub detail).cause = k.code := rfl
@[simp] theorem State.faultEntry_info (k : Cause) (sub detail : Nat) : (s.faultEntry k sub detail).info = infoWord sub detail := rfl
@[simp] theorem State.faultEntry_cmd (k : Cause) (sub detail : Nat) : (s.faultEntry k sub detail).cmd = s.cmd := rfl
@[simp] theorem State.faultEntry_result (k : Cause) (sub detail : Nat) : (s.faultEntry k sub detail).result = s.result := rfl
@[simp] theorem State.faultEntry_rLen (k : Cause) (sub detail : Nat) : (s.faultEntry k sub detail).rLen = s.rLen := rfl
@[simp] theorem State.faultEntry_rsDeg (k : Cause) (sub detail : Nat) : (s.faultEntry k sub detail).rsDeg = s.rsDeg := rfl
@[simp] theorem State.faultEntry_cwLen (k : Cause) (sub detail : Nat) : (s.faultEntry k sub detail).cwLen = s.cwLen := rfl
@[simp] theorem State.faultEntry_matSize (k : Cause) (sub detail : Nat) : (s.faultEntry k sub detail).matSize = s.matSize := rfl
@[simp] theorem State.faultEntry_alignN (k : Cause) (sub detail : Nat) : (s.faultEntry k sub detail).alignN = s.alignN := rfl
@[simp] theorem State.faultEntry_alignC (k : Cause) (sub detail : Nat) : (s.faultEntry k sub detail).alignC = s.alignC := rfl
@[simp] theorem State.faultEntry_mem (k : Cause) (sub detail : Nat) : (s.faultEntry k sub detail).mem = s.mem := rfl
@[simp] theorem State.faultEntry_grid (k : Cause) (sub detail : Nat) : (s.faultEntry k sub detail).grid = s.grid := rfl
@[simp] theorem State.faultEntry_faults (k : Cause) (sub detail : Nat) : (s.faultEntry k sub detail).faults = s.faults := rfl
@[simp] theorem State.faultEntry_script (k : Cause) (sub detail : Nat) : (s.faultEntry k sub detail).script = s.script := rfl
@[simp] theorem State.faultEntry_reads (k : Cause) (sub detail : Nat) : (s.faultEntry k sub detail).reads = s.reads := rfl
@[simp] theorem State.faultEntry_lat (k : Cause) (sub detail : Nat) : (s.faultEntry k sub detail).lat = s.lat := rfl
@[simp] theorem State.faultEntry_latIndex (k : Cause) (sub detail : Nat) : (s.faultEntry k sub detail).latIndex = s.latIndex := rfl

/-! ### clearFault -/

@[simp] theorem State.clearFault_busy : (s.clearFault).busy = s.busy := rfl
@[simp] theorem State.clearFault_done : (s.clearFault).done = s.done := rfl
@[simp] theorem State.clearFault_err : (s.clearFault).err = false := rfl
@[simp] theorem State.clearFault_ovr : (s.clearFault).ovr = s.ovr := rfl
@[simp] theorem State.clearFault_rsValid : (s.clearFault).rsValid = s.rsValid := rfl
@[simp] theorem State.clearFault_cause : (s.clearFault).cause = 0 := rfl
@[simp] theorem State.clearFault_info : (s.clearFault).info = 0 := rfl
@[simp] theorem State.clearFault_cmd : (s.clearFault).cmd = s.cmd := rfl
@[simp] theorem State.clearFault_result : (s.clearFault).result = s.result := rfl
@[simp] theorem State.clearFault_rLen : (s.clearFault).rLen = s.rLen := rfl
@[simp] theorem State.clearFault_rsDeg : (s.clearFault).rsDeg = s.rsDeg := rfl
@[simp] theorem State.clearFault_cwLen : (s.clearFault).cwLen = s.cwLen := rfl
@[simp] theorem State.clearFault_matSize : (s.clearFault).matSize = s.matSize := rfl
@[simp] theorem State.clearFault_alignN : (s.clearFault).alignN = s.alignN := rfl
@[simp] theorem State.clearFault_alignC : (s.clearFault).alignC = s.alignC := rfl
@[simp] theorem State.clearFault_mem : (s.clearFault).mem = s.mem := rfl
@[simp] theorem State.clearFault_grid : (s.clearFault).grid = s.grid := rfl
@[simp] theorem State.clearFault_faults : (s.clearFault).faults = s.faults := rfl
@[simp] theorem State.clearFault_script : (s.clearFault).script = s.script := rfl
@[simp] theorem State.clearFault_reads : (s.clearFault).reads = s.reads := rfl
@[simp] theorem State.clearFault_lat : (s.clearFault).lat = s.lat := rfl
@[simp] theorem State.clearFault_latIndex : (s.clearFault).latIndex = s.latIndex := rfl

/-! ### endCommand -/

@[simp] theorem State.endCommand_busy : (s.endCommand).busy = false := rfl
@[simp] theorem State.endCommand_done : (s.endCommand).done = s.done := rfl
@[simp] theorem State.endCommand_err : (s.endCommand).err = s.err := rfl
@[simp] theorem State.endCommand_ovr : (s.endCommand).ovr = s.ovr := rfl
@[simp] theorem State.endCommand_rsValid : (s.endCommand).rsValid = s.rsValid := rfl
@[simp] theorem State.endCommand_cause : (s.endCommand).cause = s.cause := rfl
@[simp] theorem State.endCommand_info : (s.endCommand).info = s.info := rfl
@[simp] theorem State.endCommand_cmd : (s.endCommand).cmd = s.cmd := rfl
@[simp] theorem State.endCommand_result : (s.endCommand).result = s.result := rfl
@[simp] theorem State.endCommand_rLen : (s.endCommand).rLen = s.rLen := rfl
@[simp] theorem State.endCommand_rsDeg : (s.endCommand).rsDeg = s.rsDeg := rfl
@[simp] theorem State.endCommand_cwLen : (s.endCommand).cwLen = s.cwLen := rfl
@[simp] theorem State.endCommand_matSize : (s.endCommand).matSize = s.matSize := rfl
@[simp] theorem State.endCommand_alignN : (s.endCommand).alignN = s.alignN := rfl
@[simp] theorem State.endCommand_alignC : (s.endCommand).alignC = s.alignC := rfl
@[simp] theorem State.endCommand_mem : (s.endCommand).mem = s.mem := rfl
@[simp] theorem State.endCommand_grid : (s.endCommand).grid = s.grid := rfl
@[simp] theorem State.endCommand_faults : (s.endCommand).faults = s.faults := rfl
@[simp] theorem State.endCommand_script : (s.endCommand).script = s.script := rfl
@[simp] theorem State.endCommand_reads : (s.endCommand).reads = s.reads := rfl
@[simp] theorem State.endCommand_lat : (s.endCommand).lat = s.lat := rfl
@[simp] theorem State.endCommand_latIndex : (s.endCommand).latIndex = s.latIndex := rfl

/-! ### complete -/

@[simp] theorem State.complete_busy : (s.complete).busy = false := rfl
@[simp] theorem State.complete_done : (s.complete).done = true := rfl
@[simp] theorem State.complete_err : (s.complete).err = s.err := rfl
@[simp] theorem State.complete_ovr : (s.complete).ovr = s.ovr := rfl
@[simp] theorem State.complete_rsValid : (s.complete).rsValid = s.rsValid := rfl
@[simp] theorem State.complete_cause : (s.complete).cause = s.cause := rfl
@[simp] theorem State.complete_info : (s.complete).info = s.info := rfl
@[simp] theorem State.complete_cmd : (s.complete).cmd = s.cmd := rfl
@[simp] theorem State.complete_result : (s.complete).result = s.result := rfl
@[simp] theorem State.complete_rLen : (s.complete).rLen = s.rLen := rfl
@[simp] theorem State.complete_rsDeg : (s.complete).rsDeg = s.rsDeg := rfl
@[simp] theorem State.complete_cwLen : (s.complete).cwLen = s.cwLen := rfl
@[simp] theorem State.complete_matSize : (s.complete).matSize = s.matSize := rfl
@[simp] theorem State.complete_alignN : (s.complete).alignN = s.alignN := rfl
@[simp] theorem State.complete_alignC : (s.complete).alignC = s.alignC := rfl
@[simp] theorem State.complete_mem : (s.complete).mem = s.mem := rfl
@[simp] theorem State.complete_grid : (s.complete).grid = s.grid := rfl
@[simp] theorem State.complete_faults : (s.complete).faults = s.faults := rfl
@[simp] theorem State.complete_script : (s.complete).script = s.script := rfl
@[simp] theorem State.complete_reads : (s.complete).reads = s.reads := rfl
@[simp] theorem State.complete_lat : (s.complete).lat = s.lat := rfl
@[simp] theorem State.complete_latIndex : (s.complete).latIndex = s.latIndex := rfl

/-! ### record -/

@[simp] theorem State.record_busy (f : ModelFault) : (s.record f).busy = s.busy := rfl
@[simp] theorem State.record_done (f : ModelFault) : (s.record f).done = s.done := rfl
@[simp] theorem State.record_err (f : ModelFault) : (s.record f).err = s.err := rfl
@[simp] theorem State.record_ovr (f : ModelFault) : (s.record f).ovr = s.ovr := rfl
@[simp] theorem State.record_rsValid (f : ModelFault) : (s.record f).rsValid = s.rsValid := rfl
@[simp] theorem State.record_cause (f : ModelFault) : (s.record f).cause = s.cause := rfl
@[simp] theorem State.record_info (f : ModelFault) : (s.record f).info = s.info := rfl
@[simp] theorem State.record_cmd (f : ModelFault) : (s.record f).cmd = s.cmd := rfl
@[simp] theorem State.record_result (f : ModelFault) : (s.record f).result = s.result := rfl
@[simp] theorem State.record_rLen (f : ModelFault) : (s.record f).rLen = s.rLen := rfl
@[simp] theorem State.record_rsDeg (f : ModelFault) : (s.record f).rsDeg = s.rsDeg := rfl
@[simp] theorem State.record_cwLen (f : ModelFault) : (s.record f).cwLen = s.cwLen := rfl
@[simp] theorem State.record_matSize (f : ModelFault) : (s.record f).matSize = s.matSize := rfl
@[simp] theorem State.record_alignN (f : ModelFault) : (s.record f).alignN = s.alignN := rfl
@[simp] theorem State.record_alignC (f : ModelFault) : (s.record f).alignC = s.alignC := rfl
@[simp] theorem State.record_mem (f : ModelFault) : (s.record f).mem = s.mem := rfl
@[simp] theorem State.record_grid (f : ModelFault) : (s.record f).grid = s.grid := rfl
@[simp] theorem State.record_faults (f : ModelFault) : (s.record f).faults = s.faults ++ [f] := rfl
@[simp] theorem State.record_script (f : ModelFault) : (s.record f).script = s.script := rfl
@[simp] theorem State.record_reads (f : ModelFault) : (s.record f).reads = s.reads := rfl
@[simp] theorem State.record_lat (f : ModelFault) : (s.record f).lat = s.lat := rfl
@[simp] theorem State.record_latIndex (f : ModelFault) : (s.record f).latIndex = s.latIndex := rfl

/-! ### withResult -/

@[simp] theorem State.withResult_busy (w : Word) : (s.withResult w).busy = s.busy := rfl
@[simp] theorem State.withResult_done (w : Word) : (s.withResult w).done = s.done := rfl
@[simp] theorem State.withResult_err (w : Word) : (s.withResult w).err = s.err := rfl
@[simp] theorem State.withResult_ovr (w : Word) : (s.withResult w).ovr = s.ovr := rfl
@[simp] theorem State.withResult_rsValid (w : Word) : (s.withResult w).rsValid = s.rsValid := rfl
@[simp] theorem State.withResult_cause (w : Word) : (s.withResult w).cause = s.cause := rfl
@[simp] theorem State.withResult_info (w : Word) : (s.withResult w).info = s.info := rfl
@[simp] theorem State.withResult_cmd (w : Word) : (s.withResult w).cmd = s.cmd := rfl
@[simp] theorem State.withResult_result (w : Word) : (s.withResult w).result = w := rfl
@[simp] theorem State.withResult_rLen (w : Word) : (s.withResult w).rLen = s.rLen := rfl
@[simp] theorem State.withResult_rsDeg (w : Word) : (s.withResult w).rsDeg = s.rsDeg := rfl
@[simp] theorem State.withResult_cwLen (w : Word) : (s.withResult w).cwLen = s.cwLen := rfl
@[simp] theorem State.withResult_matSize (w : Word) : (s.withResult w).matSize = s.matSize := rfl
@[simp] theorem State.withResult_alignN (w : Word) : (s.withResult w).alignN = s.alignN := rfl
@[simp] theorem State.withResult_alignC (w : Word) : (s.withResult w).alignC = s.alignC := rfl
@[simp] theorem State.withResult_mem (w : Word) : (s.withResult w).mem = s.mem := rfl
@[simp] theorem State.withResult_grid (w : Word) : (s.withResult w).grid = s.grid := rfl
@[simp] theorem State.withResult_faults (w : Word) : (s.withResult w).faults = s.faults := rfl
@[simp] theorem State.withResult_script (w : Word) : (s.withResult w).script = s.script := rfl
@[simp] theorem State.withResult_reads (w : Word) : (s.withResult w).reads = s.reads := rfl
@[simp] theorem State.withResult_lat (w : Word) : (s.withResult w).lat = s.lat := rfl
@[simp] theorem State.withResult_latIndex (w : Word) : (s.withResult w).latIndex = s.latIndex := rfl

/-! ### withPolyR -/

@[simp] theorem State.withPolyR_busy (r : List Byte) : (s.withPolyR r).busy = s.busy := rfl
@[simp] theorem State.withPolyR_done (r : List Byte) : (s.withPolyR r).done = s.done := rfl
@[simp] theorem State.withPolyR_err (r : List Byte) : (s.withPolyR r).err = s.err := rfl
@[simp] theorem State.withPolyR_ovr (r : List Byte) : (s.withPolyR r).ovr = s.ovr := rfl
@[simp] theorem State.withPolyR_rsValid (r : List Byte) : (s.withPolyR r).rsValid = s.rsValid := rfl
@[simp] theorem State.withPolyR_cause (r : List Byte) : (s.withPolyR r).cause = s.cause := rfl
@[simp] theorem State.withPolyR_info (r : List Byte) : (s.withPolyR r).info = s.info := rfl
@[simp] theorem State.withPolyR_cmd (r : List Byte) : (s.withPolyR r).cmd = s.cmd := rfl
@[simp] theorem State.withPolyR_result (r : List Byte) : (s.withPolyR r).result = s.result := rfl
@[simp] theorem State.withPolyR_rLen (r : List Byte) : (s.withPolyR r).rLen = BitVec.ofNat 9 r.length := rfl
@[simp] theorem State.withPolyR_rsDeg (r : List Byte) : (s.withPolyR r).rsDeg = s.rsDeg := rfl
@[simp] theorem State.withPolyR_cwLen (r : List Byte) : (s.withPolyR r).cwLen = s.cwLen := rfl
@[simp] theorem State.withPolyR_matSize (r : List Byte) : (s.withPolyR r).matSize = s.matSize := rfl
@[simp] theorem State.withPolyR_alignN (r : List Byte) : (s.withPolyR r).alignN = s.alignN := rfl
@[simp] theorem State.withPolyR_alignC (r : List Byte) : (s.withPolyR r).alignC = s.alignC := rfl
@[simp] theorem State.withPolyR_mem (r : List Byte) : (s.withPolyR r).mem = s.mem.writeRange Buffer.polyR.base (padTo Config.polyCap r) := rfl
@[simp] theorem State.withPolyR_grid (r : List Byte) : (s.withPolyR r).grid = s.grid := rfl
@[simp] theorem State.withPolyR_faults (r : List Byte) : (s.withPolyR r).faults = s.faults := rfl
@[simp] theorem State.withPolyR_script (r : List Byte) : (s.withPolyR r).script = s.script := rfl
@[simp] theorem State.withPolyR_reads (r : List Byte) : (s.withPolyR r).reads = s.reads := rfl
@[simp] theorem State.withPolyR_lat (r : List Byte) : (s.withPolyR r).lat = s.lat := rfl
@[simp] theorem State.withPolyR_latIndex (r : List Byte) : (s.withPolyR r).latIndex = s.latIndex := rfl

/-! ### withRs -/

@[simp] theorem State.withRs_busy (n : Nat) (g : List Byte) : (s.withRs n g).busy = s.busy := rfl
@[simp] theorem State.withRs_done (n : Nat) (g : List Byte) : (s.withRs n g).done = s.done := rfl
@[simp] theorem State.withRs_err (n : Nat) (g : List Byte) : (s.withRs n g).err = s.err := rfl
@[simp] theorem State.withRs_ovr (n : Nat) (g : List Byte) : (s.withRs n g).ovr = s.ovr := rfl
@[simp] theorem State.withRs_rsValid (n : Nat) (g : List Byte) : (s.withRs n g).rsValid = true := rfl
@[simp] theorem State.withRs_cause (n : Nat) (g : List Byte) : (s.withRs n g).cause = s.cause := rfl
@[simp] theorem State.withRs_info (n : Nat) (g : List Byte) : (s.withRs n g).info = s.info := rfl
@[simp] theorem State.withRs_cmd (n : Nat) (g : List Byte) : (s.withRs n g).cmd = s.cmd := rfl
@[simp] theorem State.withRs_result (n : Nat) (g : List Byte) : (s.withRs n g).result = s.result := rfl
@[simp] theorem State.withRs_rLen (n : Nat) (g : List Byte) : (s.withRs n g).rLen = s.rLen := rfl
@[simp] theorem State.withRs_rsDeg (n : Nat) (g : List Byte) : (s.withRs n g).rsDeg = BitVec.ofNat 8 n := rfl
@[simp] theorem State.withRs_cwLen (n : Nat) (g : List Byte) : (s.withRs n g).cwLen = s.cwLen := rfl
@[simp] theorem State.withRs_matSize (n : Nat) (g : List Byte) : (s.withRs n g).matSize = s.matSize := rfl
@[simp] theorem State.withRs_alignN (n : Nat) (g : List Byte) : (s.withRs n g).alignN = s.alignN := rfl
@[simp] theorem State.withRs_alignC (n : Nat) (g : List Byte) : (s.withRs n g).alignC = s.alignC := rfl
@[simp] theorem State.withRs_mem (n : Nat) (g : List Byte) : (s.withRs n g).mem = s.mem.writeRange Buffer.gen.base (padTo Config.polyCap g) := rfl
@[simp] theorem State.withRs_grid (n : Nat) (g : List Byte) : (s.withRs n g).grid = s.grid := rfl
@[simp] theorem State.withRs_faults (n : Nat) (g : List Byte) : (s.withRs n g).faults = s.faults := rfl
@[simp] theorem State.withRs_script (n : Nat) (g : List Byte) : (s.withRs n g).script = s.script := rfl
@[simp] theorem State.withRs_reads (n : Nat) (g : List Byte) : (s.withRs n g).reads = s.reads := rfl
@[simp] theorem State.withRs_lat (n : Nat) (g : List Byte) : (s.withRs n g).lat = s.lat := rfl
@[simp] theorem State.withRs_latIndex (n : Nat) (g : List Byte) : (s.withRs n g).latIndex = s.latIndex := rfl

/-! ### withStream -/

@[simp] theorem State.withStream_busy (out : List Byte) : (s.withStream out).busy = s.busy := rfl
@[simp] theorem State.withStream_done (out : List Byte) : (s.withStream out).done = s.done := rfl
@[simp] theorem State.withStream_err (out : List Byte) : (s.withStream out).err = s.err := rfl
@[simp] theorem State.withStream_ovr (out : List Byte) : (s.withStream out).ovr = s.ovr := rfl
@[simp] theorem State.withStream_rsValid (out : List Byte) : (s.withStream out).rsValid = s.rsValid := rfl
@[simp] theorem State.withStream_cause (out : List Byte) : (s.withStream out).cause = s.cause := rfl
@[simp] theorem State.withStream_info (out : List Byte) : (s.withStream out).info = s.info := rfl
@[simp] theorem State.withStream_cmd (out : List Byte) : (s.withStream out).cmd = s.cmd := rfl
@[simp] theorem State.withStream_result (out : List Byte) : (s.withStream out).result = s.result := rfl
@[simp] theorem State.withStream_rLen (out : List Byte) : (s.withStream out).rLen = s.rLen := rfl
@[simp] theorem State.withStream_rsDeg (out : List Byte) : (s.withStream out).rsDeg = s.rsDeg := rfl
@[simp] theorem State.withStream_cwLen (out : List Byte) : (s.withStream out).cwLen = BitVec.ofNat 12 out.length := rfl
@[simp] theorem State.withStream_matSize (out : List Byte) : (s.withStream out).matSize = s.matSize := rfl
@[simp] theorem State.withStream_alignN (out : List Byte) : (s.withStream out).alignN = s.alignN := rfl
@[simp] theorem State.withStream_alignC (out : List Byte) : (s.withStream out).alignC = s.alignC := rfl
@[simp] theorem State.withStream_mem (out : List Byte) : (s.withStream out).mem = s.mem.writeRange Buffer.cwOut.base out := rfl
@[simp] theorem State.withStream_grid (out : List Byte) : (s.withStream out).grid = s.grid := rfl
@[simp] theorem State.withStream_faults (out : List Byte) : (s.withStream out).faults = s.faults := rfl
@[simp] theorem State.withStream_script (out : List Byte) : (s.withStream out).script = s.script := rfl
@[simp] theorem State.withStream_reads (out : List Byte) : (s.withStream out).reads = s.reads := rfl
@[simp] theorem State.withStream_lat (out : List Byte) : (s.withStream out).lat = s.lat := rfl
@[simp] theorem State.withStream_latIndex (out : List Byte) : (s.withStream out).latIndex = s.latIndex := rfl

/-! ### withGrid -/

@[simp] theorem State.withGrid_busy (g : Grid) : (s.withGrid g).busy = s.busy := rfl
@[simp] theorem State.withGrid_done (g : Grid) : (s.withGrid g).done = s.done := rfl
@[simp] theorem State.withGrid_err (g : Grid) : (s.withGrid g).err = s.err := rfl
@[simp] theorem State.withGrid_ovr (g : Grid) : (s.withGrid g).ovr = s.ovr := rfl
@[simp] theorem State.withGrid_rsValid (g : Grid) : (s.withGrid g).rsValid = s.rsValid := rfl
@[simp] theorem State.withGrid_cause (g : Grid) : (s.withGrid g).cause = s.cause := rfl
@[simp] theorem State.withGrid_info (g : Grid) : (s.withGrid g).info = s.info := rfl
@[simp] theorem State.withGrid_cmd (g : Grid) : (s.withGrid g).cmd = s.cmd := rfl
@[simp] theorem State.withGrid_result (g : Grid) : (s.withGrid g).result = s.result := rfl
@[simp] theorem State.withGrid_rLen (g : Grid) : (s.withGrid g).rLen = s.rLen := rfl
@[simp] theorem State.withGrid_rsDeg (g : Grid) : (s.withGrid g).rsDeg = s.rsDeg := rfl
@[simp] theorem State.withGrid_cwLen (g : Grid) : (s.withGrid g).cwLen = s.cwLen := rfl
@[simp] theorem State.withGrid_matSize (g : Grid) : (s.withGrid g).matSize = s.matSize := rfl
@[simp] theorem State.withGrid_alignN (g : Grid) : (s.withGrid g).alignN = s.alignN := rfl
@[simp] theorem State.withGrid_alignC (g : Grid) : (s.withGrid g).alignC = s.alignC := rfl
@[simp] theorem State.withGrid_mem (g : Grid) : (s.withGrid g).mem = s.mem := rfl
@[simp] theorem State.withGrid_grid (g : Grid) : (s.withGrid g).grid = g := rfl
@[simp] theorem State.withGrid_faults (g : Grid) : (s.withGrid g).faults = s.faults := rfl
@[simp] theorem State.withGrid_script (g : Grid) : (s.withGrid g).script = s.script := rfl
@[simp] theorem State.withGrid_reads (g : Grid) : (s.withGrid g).reads = s.reads := rfl
@[simp] theorem State.withGrid_lat (g : Grid) : (s.withGrid g).lat = s.lat := rfl
@[simp] theorem State.withGrid_latIndex (g : Grid) : (s.withGrid g).latIndex = s.latIndex := rfl

/-! ### withNewMatrix -/

@[simp] theorem State.withNewMatrix_busy (n : Nat) : (s.withNewMatrix n).busy = s.busy := rfl
@[simp] theorem State.withNewMatrix_done (n : Nat) : (s.withNewMatrix n).done = s.done := rfl
@[simp] theorem State.withNewMatrix_err (n : Nat) : (s.withNewMatrix n).err = s.err := rfl
@[simp] theorem State.withNewMatrix_ovr (n : Nat) : (s.withNewMatrix n).ovr = s.ovr := rfl
@[simp] theorem State.withNewMatrix_rsValid (n : Nat) : (s.withNewMatrix n).rsValid = s.rsValid := rfl
@[simp] theorem State.withNewMatrix_cause (n : Nat) : (s.withNewMatrix n).cause = s.cause := rfl
@[simp] theorem State.withNewMatrix_info (n : Nat) : (s.withNewMatrix n).info = s.info := rfl
@[simp] theorem State.withNewMatrix_cmd (n : Nat) : (s.withNewMatrix n).cmd = s.cmd := rfl
@[simp] theorem State.withNewMatrix_result (n : Nat) : (s.withNewMatrix n).result = s.result := rfl
@[simp] theorem State.withNewMatrix_rLen (n : Nat) : (s.withNewMatrix n).rLen = s.rLen := rfl
@[simp] theorem State.withNewMatrix_rsDeg (n : Nat) : (s.withNewMatrix n).rsDeg = s.rsDeg := rfl
@[simp] theorem State.withNewMatrix_cwLen (n : Nat) : (s.withNewMatrix n).cwLen = s.cwLen := rfl
@[simp] theorem State.withNewMatrix_matSize (n : Nat) : (s.withNewMatrix n).matSize = BitVec.ofNat 8 n := rfl
@[simp] theorem State.withNewMatrix_alignN (n : Nat) : (s.withNewMatrix n).alignN = s.alignN := rfl
@[simp] theorem State.withNewMatrix_alignC (n : Nat) : (s.withNewMatrix n).alignC = s.alignC := rfl
@[simp] theorem State.withNewMatrix_mem (n : Nat) : (s.withNewMatrix n).mem = s.mem := rfl
@[simp] theorem State.withNewMatrix_grid (n : Nat) : (s.withNewMatrix n).grid = [] := rfl
@[simp] theorem State.withNewMatrix_faults (n : Nat) : (s.withNewMatrix n).faults = s.faults := rfl
@[simp] theorem State.withNewMatrix_script (n : Nat) : (s.withNewMatrix n).script = s.script := rfl
@[simp] theorem State.withNewMatrix_reads (n : Nat) : (s.withNewMatrix n).reads = s.reads := rfl
@[simp] theorem State.withNewMatrix_lat (n : Nat) : (s.withNewMatrix n).lat = s.lat := rfl
@[simp] theorem State.withNewMatrix_latIndex (n : Nat) : (s.withNewMatrix n).latIndex = s.latIndex := rfl

/-! ### withAlign -/

@[simp] theorem State.withAlign_busy (co : List Nat) : (s.withAlign co).busy = s.busy := rfl
@[simp] theorem State.withAlign_done (co : List Nat) : (s.withAlign co).done = s.done := rfl
@[simp] theorem State.withAlign_err (co : List Nat) : (s.withAlign co).err = s.err := rfl
@[simp] theorem State.withAlign_ovr (co : List Nat) : (s.withAlign co).ovr = s.ovr := rfl
@[simp] theorem State.withAlign_rsValid (co : List Nat) : (s.withAlign co).rsValid = s.rsValid := rfl
@[simp] theorem State.withAlign_cause (co : List Nat) : (s.withAlign co).cause = s.cause := rfl
@[simp] theorem State.withAlign_info (co : List Nat) : (s.withAlign co).info = s.info := rfl
@[simp] theorem State.withAlign_cmd (co : List Nat) : (s.withAlign co).cmd = s.cmd := rfl
@[simp] theorem State.withAlign_result (co : List Nat) : (s.withAlign co).result = s.result := rfl
@[simp] theorem State.withAlign_rLen (co : List Nat) : (s.withAlign co).rLen = s.rLen := rfl
@[simp] theorem State.withAlign_rsDeg (co : List Nat) : (s.withAlign co).rsDeg = s.rsDeg := rfl
@[simp] theorem State.withAlign_cwLen (co : List Nat) : (s.withAlign co).cwLen = s.cwLen := rfl
@[simp] theorem State.withAlign_matSize (co : List Nat) : (s.withAlign co).matSize = s.matSize := rfl
@[simp] theorem State.withAlign_alignN (co : List Nat) : (s.withAlign co).alignN = BitVec.ofNat 3 co.length := rfl
@[simp] theorem State.withAlign_alignC (co : List Nat) : (s.withAlign co).alignC = Vector.ofFn (fun k : Fin 7 => BitVec.ofNat 8 (co.getD k.val 0)) := rfl
@[simp] theorem State.withAlign_mem (co : List Nat) : (s.withAlign co).mem = s.mem := rfl
@[simp] theorem State.withAlign_grid (co : List Nat) : (s.withAlign co).grid = s.grid := rfl
@[simp] theorem State.withAlign_faults (co : List Nat) : (s.withAlign co).faults = s.faults := rfl
@[simp] theorem State.withAlign_script (co : List Nat) : (s.withAlign co).script = s.script := rfl
@[simp] theorem State.withAlign_reads (co : List Nat) : (s.withAlign co).reads = s.reads := rfl
@[simp] theorem State.withAlign_lat (co : List Nat) : (s.withAlign co).lat = s.lat := rfl
@[simp] theorem State.withAlign_latIndex (co : List Nat) : (s.withAlign co).latIndex = s.latIndex := rfl

/-! ### accept -/

@[simp] theorem State.accept_busy (w : Word) : (s.accept w).busy = true := rfl
@[simp] theorem State.accept_done (w : Word) : (s.accept w).done = false := rfl
@[simp] theorem State.accept_err (w : Word) : (s.accept w).err = s.err := rfl
@[simp] theorem State.accept_ovr (w : Word) : (s.accept w).ovr = s.ovr := rfl
@[simp] theorem State.accept_rsValid (w : Word) : (s.accept w).rsValid = s.rsValid := rfl
@[simp] theorem State.accept_cause (w : Word) : (s.accept w).cause = s.cause := rfl
@[simp] theorem State.accept_info (w : Word) : (s.accept w).info = s.info := rfl
@[simp] theorem State.accept_cmd (w : Word) : (s.accept w).cmd = w := rfl
@[simp] theorem State.accept_result (w : Word) : (s.accept w).result = s.result := rfl
@[simp] theorem State.accept_rLen (w : Word) : (s.accept w).rLen = s.rLen := rfl
@[simp] theorem State.accept_rsDeg (w : Word) : (s.accept w).rsDeg = s.rsDeg := rfl
@[simp] theorem State.accept_cwLen (w : Word) : (s.accept w).cwLen = s.cwLen := rfl
@[simp] theorem State.accept_matSize (w : Word) : (s.accept w).matSize = s.matSize := rfl
@[simp] theorem State.accept_alignN (w : Word) : (s.accept w).alignN = s.alignN := rfl
@[simp] theorem State.accept_alignC (w : Word) : (s.accept w).alignC = s.alignC := rfl
@[simp] theorem State.accept_mem (w : Word) : (s.accept w).mem = s.mem := rfl
@[simp] theorem State.accept_grid (w : Word) : (s.accept w).grid = s.grid := rfl
@[simp] theorem State.accept_faults (w : Word) : (s.accept w).faults = s.faults := rfl
@[simp] theorem State.accept_script (w : Word) : (s.accept w).script = s.script := rfl
@[simp] theorem State.accept_reads (w : Word) : (s.accept w).reads = s.reads := rfl
@[simp] theorem State.accept_lat (w : Word) : (s.accept w).lat = Config.lat s.latIndex := rfl
@[simp] theorem State.accept_latIndex (w : Word) : (s.accept w).latIndex = s.latIndex + 1 := rfl

/-! ### writeCwLen -/

@[simp] theorem State.writeCwLen_busy (w : Word) : (s.writeCwLen w).busy = s.busy := rfl
@[simp] theorem State.writeCwLen_done (w : Word) : (s.writeCwLen w).done = s.done := rfl
@[simp] theorem State.writeCwLen_err (w : Word) : (s.writeCwLen w).err = s.err := rfl
@[simp] theorem State.writeCwLen_ovr (w : Word) : (s.writeCwLen w).ovr = s.ovr := rfl
@[simp] theorem State.writeCwLen_rsValid (w : Word) : (s.writeCwLen w).rsValid = s.rsValid := rfl
@[simp] theorem State.writeCwLen_cause (w : Word) : (s.writeCwLen w).cause = s.cause := rfl
@[simp] theorem State.writeCwLen_info (w : Word) : (s.writeCwLen w).info = s.info := rfl
@[simp] theorem State.writeCwLen_cmd (w : Word) : (s.writeCwLen w).cmd = s.cmd := rfl
@[simp] theorem State.writeCwLen_result (w : Word) : (s.writeCwLen w).result = s.result := rfl
@[simp] theorem State.writeCwLen_rLen (w : Word) : (s.writeCwLen w).rLen = s.rLen := rfl
@[simp] theorem State.writeCwLen_rsDeg (w : Word) : (s.writeCwLen w).rsDeg = s.rsDeg := rfl
@[simp] theorem State.writeCwLen_cwLen (w : Word) : (s.writeCwLen w).cwLen = w.setWidth 12 := rfl
@[simp] theorem State.writeCwLen_matSize (w : Word) : (s.writeCwLen w).matSize = s.matSize := rfl
@[simp] theorem State.writeCwLen_alignN (w : Word) : (s.writeCwLen w).alignN = s.alignN := rfl
@[simp] theorem State.writeCwLen_alignC (w : Word) : (s.writeCwLen w).alignC = s.alignC := rfl
@[simp] theorem State.writeCwLen_mem (w : Word) : (s.writeCwLen w).mem = s.mem := rfl
@[simp] theorem State.writeCwLen_grid (w : Word) : (s.writeCwLen w).grid = s.grid := rfl
@[simp] theorem State.writeCwLen_faults (w : Word) : (s.writeCwLen w).faults = s.faults := rfl
@[simp] theorem State.writeCwLen_script (w : Word) : (s.writeCwLen w).script = s.script := rfl
@[simp] theorem State.writeCwLen_reads (w : Word) : (s.writeCwLen w).reads = s.reads := rfl
@[simp] theorem State.writeCwLen_lat (w : Word) : (s.writeCwLen w).lat = s.lat := rfl
@[simp] theorem State.writeCwLen_latIndex (w : Word) : (s.writeCwLen w).latIndex = s.latIndex := rfl

/-! ### took -/

@[simp] theorem State.took_busy (rest : List HostOp) : (s.took rest).busy = s.busy := rfl
@[simp] theorem State.took_done (rest : List HostOp) : (s.took rest).done = s.done := rfl
@[simp] theorem State.took_err (rest : List HostOp) : (s.took rest).err = s.err := rfl
@[simp] theorem State.took_ovr (rest : List HostOp) : (s.took rest).ovr = s.ovr := rfl
@[simp] theorem State.took_rsValid (rest : List HostOp) : (s.took rest).rsValid = s.rsValid := rfl
@[simp] theorem State.took_cause (rest : List HostOp) : (s.took rest).cause = s.cause := rfl
@[simp] theorem State.took_info (rest : List HostOp) : (s.took rest).info = s.info := rfl
@[simp] theorem State.took_cmd (rest : List HostOp) : (s.took rest).cmd = s.cmd := rfl
@[simp] theorem State.took_result (rest : List HostOp) : (s.took rest).result = s.result := rfl
@[simp] theorem State.took_rLen (rest : List HostOp) : (s.took rest).rLen = s.rLen := rfl
@[simp] theorem State.took_rsDeg (rest : List HostOp) : (s.took rest).rsDeg = s.rsDeg := rfl
@[simp] theorem State.took_cwLen (rest : List HostOp) : (s.took rest).cwLen = s.cwLen := rfl
@[simp] theorem State.took_matSize (rest : List HostOp) : (s.took rest).matSize = s.matSize := rfl
@[simp] theorem State.took_alignN (rest : List HostOp) : (s.took rest).alignN = s.alignN := rfl
@[simp] theorem State.took_alignC (rest : List HostOp) : (s.took rest).alignC = s.alignC := rfl
@[simp] theorem State.took_mem (rest : List HostOp) : (s.took rest).mem = s.mem := rfl
@[simp] theorem State.took_grid (rest : List HostOp) : (s.took rest).grid = s.grid := rfl
@[simp] theorem State.took_faults (rest : List HostOp) : (s.took rest).faults = s.faults := rfl
@[simp] theorem State.took_script (rest : List HostOp) : (s.took rest).script = rest := rfl
@[simp] theorem State.took_reads (rest : List HostOp) : (s.took rest).reads = s.reads := rfl
@[simp] theorem State.took_lat (rest : List HostOp) : (s.took rest).lat = s.lat - 1 := rfl
@[simp] theorem State.took_latIndex (rest : List HostOp) : (s.took rest).latIndex = s.latIndex := rfl

/-! ### withPending -/

@[simp] theorem State.withPending_busy (w : Word) : (s.withPending w).busy = true := rfl
@[simp] theorem State.withPending_done (w : Word) : (s.withPending w).done = false := rfl
@[simp] theorem State.withPending_err (w : Word) : (s.withPending w).err = s.err := rfl
@[simp] theorem State.withPending_ovr (w : Word) : (s.withPending w).ovr = s.ovr := rfl
@[simp] theorem State.withPending_rsValid (w : Word) : (s.withPending w).rsValid = s.rsValid := rfl
@[simp] theorem State.withPending_cause (w : Word) : (s.withPending w).cause = s.cause := rfl
@[simp] theorem State.withPending_info (w : Word) : (s.withPending w).info = s.info := rfl
@[simp] theorem State.withPending_cmd (w : Word) : (s.withPending w).cmd = w := rfl
@[simp] theorem State.withPending_result (w : Word) : (s.withPending w).result = s.result := rfl
@[simp] theorem State.withPending_rLen (w : Word) : (s.withPending w).rLen = s.rLen := rfl
@[simp] theorem State.withPending_rsDeg (w : Word) : (s.withPending w).rsDeg = s.rsDeg := rfl
@[simp] theorem State.withPending_cwLen (w : Word) : (s.withPending w).cwLen = s.cwLen := rfl
@[simp] theorem State.withPending_matSize (w : Word) : (s.withPending w).matSize = s.matSize := rfl
@[simp] theorem State.withPending_alignN (w : Word) : (s.withPending w).alignN = s.alignN := rfl
@[simp] theorem State.withPending_alignC (w : Word) : (s.withPending w).alignC = s.alignC := rfl
@[simp] theorem State.withPending_mem (w : Word) : (s.withPending w).mem = s.mem := rfl
@[simp] theorem State.withPending_grid (w : Word) : (s.withPending w).grid = s.grid := rfl
@[simp] theorem State.withPending_faults (w : Word) : (s.withPending w).faults = [] := rfl
@[simp] theorem State.withPending_script (w : Word) : (s.withPending w).script = s.script := rfl
@[simp] theorem State.withPending_reads (w : Word) : (s.withPending w).reads = s.reads := rfl
@[simp] theorem State.withPending_lat (w : Word) : (s.withPending w).lat = 0 := rfl
@[simp] theorem State.withPending_latIndex (w : Word) : (s.withPending w).latIndex = s.latIndex := rfl

end Sys2Proof.Machine
end

