-- ==== Sys2Proof/Laws/Ops.lean ====
section
/-! SUPPORT. What each shared operation can do, said once: the ends of a command, the cell, matrix and version checks, the reads
of operands, the turns of the machine. -/

namespace Sys2Proof.Machine

/-! ### Ends of a command -/

theorem raise_eq (s : State) (k : Cause) (sub detail : Nat) :
    raise s k sub detail = .next { s with err := true, cause := k.code, info := infoWord sub detail, busy := false } := rfl

theorem finish_eq (s : State) : finish s = .next { s with done := true, busy := false } := rfl

theorem uninit_eq (s : State) : uninit s = .next { s with faults := s.faults ++ [.uninitRead] } := rfl

theorem raise_next {s t : State} {k : Cause} {sub detail : Nat} (h : raise s k sub detail = .next t) :
    t = (s.faultEntry k sub detail).endCommand := by
  cases h; rfl

theorem finish_next {s t : State} (h : finish s = .next t) : t = s.complete := by
  cases h; rfl

theorem uninit_next {s t : State} (h : uninit s = .next t) : t = s.record .uninitRead := by
  cases h; rfl

/-! ### Checks -/

/-- The cell check (43_bit_matrix R180): RANGE 2, RANGE 3, or on to `k`. -/
theorem withCell_cases (s : State) (r c : Nat) (k : Result) :
    (s.side = 0 ∧ withCell s r c k = raise s .range 2 0) ∨
    (s.side ≠ 0 ∧ (s.side ≤ r ∨ s.side ≤ c) ∧ withCell s r c k = raise s .range 3 (256 * r + c)) ∨
    (r < s.side ∧ c < s.side ∧ withCell s r c k = k) := by
  unfold withCell
  by_cases h0 : s.side = 0
  · exact .inl ⟨h0, by rw [if_pos h0]⟩
  · by_cases h1 : s.side ≤ r ∨ s.side ≤ c
    · exact .inr (.inl ⟨h0, h1, by rw [if_neg h0, if_pos h1]⟩)
    · exact .inr (.inr ⟨by omega, by omega, by rw [if_neg h0, if_neg h1]⟩)

/-- The matrix check (43_bit_matrix R181): RANGE 2, or on to `k`. -/
theorem withMatrix_cases (s : State) (k : Nat → Result) :
    (s.side = 0 ∧ withMatrix s k = raise s .range 2 0) ∨ (s.side ≠ 0 ∧ withMatrix s k = k s.side) := by
  unfold withMatrix
  by_cases h0 : s.side = 0
  · exact .inl ⟨h0, by rw [if_pos h0]⟩
  · exact .inr ⟨h0, by rw [if_neg h0]⟩

/-- The geometry check (44_structural_placer R200): RANGE 2, GEOMETRY 1, or on to `k` with the version. -/
theorem withVersion_cases (s : State) (k : Nat → Result) :
    (s.side = 0 ∧ withVersion s k = raise s .range 2 0) ∨
    (s.side ≠ 0 ∧ (s.side < 21 ∨ (s.side - 17) % 4 ≠ 0) ∧ withVersion s k = raise s .geometry 1 s.side) ∨
    (∃ v, 1 ≤ v ∧ s.side = symbolSize v ∧ withVersion s k = k v) := by
  unfold withVersion
  rcases withMatrix_cases s (fun side =>
      if side < 21 ∨ (side - 17) % 4 ≠ 0 then raise s .geometry 1 side else k ((side - 17) / 4)) with ⟨h0, h⟩ | ⟨h0, h⟩
  · exact .inl ⟨h0, h⟩
  · by_cases h1 : s.side < 21 ∨ (s.side - 17) % 4 ≠ 0
    · exact .inr (.inl ⟨h0, h1, by rw [h, if_pos h1]⟩)
    · exact .inr (.inr ⟨(s.side - 17) / 4, by omega, by unfold symbolSize; omega, by rw [h, if_neg h1]⟩)

/-- The version of a symbol size passes the geometry check. -/
theorem withVersion_eq (s : State) (k : Nat → Result) (v : Nat) (hv : 1 ≤ v) (h : s.side = symbolSize v) :
    withVersion s k = k v := by
  unfold symbolSize at h
  unfold withVersion withMatrix
  rw [if_neg (by omega)]
  beta_reduce
  rw [if_neg (by omega), show (s.side - 17) / 4 = v by omega]

/-! ### Operands -/

theorem State.bytes_eq_some (s : State) (b : Buffer) (n : Nat) (bs : List Byte) :
    s.bytes b n = some bs ↔ bs.length = n ∧ ∀ i, i < n → s.mem.read (b.base + i) = some (bs.getD i 0) :=
  Memory.readRange_eq_some s.mem b.base n bs

theorem State.bytes_eq_none (s : State) (b : Buffer) (n : Nat) :
    s.bytes b n = none ↔ ∃ i, i < n ∧ s.mem.read (b.base + i) = none :=
  Memory.readRange_eq_none s.mem b.base n

/-! ### What a command writes into a buffer -/

/-- After a result of POLY_R, its window reads the result, zeros above it (10_state R42). -/
theorem State.read_withPolyR (s : State) (r : List Byte) (i : Nat) (h : i < 256) :
    (s.withPolyR r).mem.read (0x1200 + i) = some (r.getD i 0) := by
  rw [State.withPolyR_mem, ← padTo_getD 256 i r h]
  exact Memory.read_writeRange_inside s.mem 0x1200 i (padTo 256 r) (by simpa using h)

/-- A result of POLY_R changes no byte outside its window. -/
theorem State.read_withPolyR_other (s : State) (r : List Byte) (a : Nat) (h : a < 0x1200 ∨ 0x1300 ≤ a) :
    (s.withPolyR r).mem.read a = s.mem.read a :=
  Memory.read_writeRange_other s.mem 0x1200 a (padTo 256 r) (by simpa using h)

/-- After a new generator, GEN's window reads it, zeros above it (10_state R42). -/
theorem State.read_withRs (s : State) (n : Nat) (g : List Byte) (i : Nat) (h : i < 256) :
    (s.withRs n g).mem.read (0x1300 + i) = some (g.getD i 0) := by
  rw [State.withRs_mem, ← padTo_getD 256 i g h]
  exact Memory.read_writeRange_inside s.mem 0x1300 i (padTo 256 g) (by simpa using h)

/-- A new generator changes no byte outside GEN's window. -/
theorem State.read_withRs_other (s : State) (n : Nat) (g : List Byte) (a : Nat) (h : a < 0x1300 ∨ 0x1400 ≤ a) :
    (s.withRs n g).mem.read a = s.mem.read a :=
  Memory.read_writeRange_other s.mem 0x1300 a (padTo 256 g) (by simpa using h)

/-- After a stream, CW_OUT reads it from index 0 up (46_interleaver R265). -/
theorem State.read_withStream (s : State) (out : List Byte) (i : Nat) (h : i < out.length) :
    (s.withStream out).mem.read (0x3000 + i) = some (out.getD i 0) :=
  Memory.read_writeRange_inside s.mem 0x3000 i out h

/-- A stream changes no byte outside the ones it fills. -/
theorem State.read_withStream_other (s : State) (out : List Byte) (a : Nat) (h : a < 0x3000 ∨ 0x3000 + out.length ≤ a) :
    (s.withStream out).mem.read a = s.mem.read a :=
  Memory.read_writeRange_other s.mem 0x3000 a out h

theorem State.wf_withPolyR (s : State) (r : List Byte) (h : s.mem.wf = true) : (s.withPolyR r).mem.wf = true := by
  refine Memory.wf_writeRange s.mem _ _ (fun i hi => ?_) h
  rw [padTo_length] at hi
  rw [bufferAt_base .polyR i hi]; rfl

theorem State.wf_withRs (s : State) (n : Nat) (g : List Byte) (h : s.mem.wf = true) : (s.withRs n g).mem.wf = true := by
  refine Memory.wf_writeRange s.mem _ _ (fun i hi => ?_) h
  rw [padTo_length] at hi
  rw [bufferAt_base .gen i hi]; rfl

theorem State.wf_withStream (s : State) (out : List Byte) (hl : out.length ≤ 4096) (h : s.mem.wf = true) :
    (s.withStream out).mem.wf = true := by
  refine Memory.wf_writeRange s.mem _ _ (fun i hi => ?_) h
  rw [bufferAt_base .cwOut i (Nat.lt_of_lt_of_le hi hl)]; rfl

/-- A host write to a buffer byte keeps the canonical form. -/
theorem State.wf_writeByte (s : State) (b : Buffer) (i : Nat) (w : Word) (hi : i < b.size) (h : s.mem.wf = true) :
    (s.writeByte b i w).mem.wf = true := by
  unfold State.writeByte
  split
  · exact Memory.wf_write s.mem _ _ (by rw [bufferAt_base b i hi]; rfl) h
  · exact h

end Sys2Proof.Machine
end

