-- ==== Sys2Proof/Laws/PerInstr.lean ====
section
/-! SUPPORT. Per command: the encoder's word meets the row of the opcode map (30_encoding R93) it stands for, whatever the
operands. -/

namespace Sys2Proof.Laws.EncodeMeetsRow

/-- The row found by the command's opcode matches the command's word: the word's bits under the row's mask are the row's match
word, and its opcode field is the command's opcode. -/
def Statement (i : Instr) : Prop :=
  ∃ row, rowOf i.opcode = some row ∧ encode i &&& row.mask = row.pattern ∧ opcodeOf (encode i) = i.opcode

/-- A word whose opcode bits are those of a constant has that constant's opcode. -/
theorem opcodeOf_eq (w v : Word) (h : w &&& 0xF8000000#32 = v &&& 0xF8000000#32) : opcodeOf w = opcodeOf v := by
  unfold opcodeOf field
  congr 1
  apply BitVec.eq_of_getLsbD_eq
  intro i hi
  have := congrArg (fun x => x.getLsbD (27 + i)) h
  interval_cases i <;> simpa using this

/-- Two words with the same bits are equal; the encoder's words are compared bit by bit. -/
theorem word_ext {w v : Word} (h : ∀ i, i < 32 → w.getLsbD i = v.getLsbD i) : w = v :=
  BitVec.eq_of_getLsbD_eq h

theorem gfExp (a : Nat) : Statement (.gfExp a) := by
  refine ⟨_, rfl, word_ext ?_, (opcodeOf_eq _ 0x08000000#32 (word_ext ?_)).trans rfl⟩ <;>
  · intro i hi; interval_cases i <;> simp [encode, putField]

theorem gfLog (a : Nat) : Statement (.gfLog a) := by
  refine ⟨_, rfl, word_ext ?_, (opcodeOf_eq _ 0x10000000#32 (word_ext ?_)).trans rfl⟩ <;>
  · intro i hi; interval_cases i <;> simp [encode, putField]

theorem gfMul (a b : Nat) : Statement (.gfMul a b) := by
  refine ⟨_, rfl, word_ext ?_, (opcodeOf_eq _ 0x18000000#32 (word_ext ?_)).trans rfl⟩ <;>
  · intro i hi; interval_cases i <;> simp [encode, putField]

theorem polyMul (p q : Nat) : Statement (.polyMul p q) := by
  refine ⟨_, rfl, word_ext ?_, (opcodeOf_eq _ 0x20000000#32 (word_ext ?_)).trans rfl⟩ <;>
  · intro i hi; interval_cases i <;> simp [encode, putField]

theorem polyMod (p q : Nat) : Statement (.polyMod p q) := by
  refine ⟨_, rfl, word_ext ?_, (opcodeOf_eq _ 0x28000000#32 (word_ext ?_)).trans rfl⟩ <;>
  · intro i hi; interval_cases i <;> simp [encode, putField]

theorem polyGen (n : Nat) : Statement (.polyGen n) := by
  refine ⟨_, rfl, word_ext ?_, (opcodeOf_eq _ 0x30000000#32 (word_ext ?_)).trans rfl⟩ <;>
  · intro i hi; interval_cases i <;> simp [encode, putField]

theorem rsInit (n : Nat) : Statement (.rsInit n) := by
  refine ⟨_, rfl, word_ext ?_, (opcodeOf_eq _ 0x38000000#32 (word_ext ?_)).trans rfl⟩ <;>
  · intro i hi; interval_cases i <;> simp [encode, putField]

theorem rsEnc (n : Nat) : Statement (.rsEnc n) := by
  refine ⟨_, rfl, word_ext ?_, (opcodeOf_eq _ 0x40000000#32 (word_ext ?_)).trans rfl⟩ <;>
  · intro i hi; interval_cases i <;> simp [encode, putField]

theorem ilvBuild (B e T : Nat) : Statement (.ilvBuild B e T) := by
  refine ⟨_, rfl, word_ext ?_, (opcodeOf_eq _ 0x48000000#32 (word_ext ?_)).trans rfl⟩ <;>
  · intro i hi; interval_cases i <;> simp [encode, putField]

theorem matInit (n : Nat) : Statement (.matInit n) := by
  refine ⟨_, rfl, word_ext ?_, (opcodeOf_eq _ 0x50000000#32 (word_ext ?_)).trans rfl⟩ <;>
  · intro i hi; interval_cases i <;> simp [encode, putField]

theorem matSet (r c : Nat) (v sr : Bool) : Statement (.matSet r c v sr) := by
  refine ⟨_, rfl, word_ext ?_, (opcodeOf_eq _ 0x58000000#32 (word_ext ?_)).trans rfl⟩ <;>
  · intro i hi; interval_cases i <;> simp [encode, putField, putBit]

theorem matXor (r c : Nat) (v : Bool) : Statement (.matXor r c v) := by
  refine ⟨_, rfl, word_ext ?_, (opcodeOf_eq _ 0x60000000#32 (word_ext ?_)).trans rfl⟩ <;>
  · intro i hi; interval_cases i <;> simp [encode, putField, putBit]

theorem matGet (r c : Nat) : Statement (.matGet r c) := by
  refine ⟨_, rfl, word_ext ?_, (opcodeOf_eq _ 0x68000000#32 (word_ext ?_)).trans rfl⟩ <;>
  · intro i hi; interval_cases i <;> simp [encode, putField]

theorem spAcoord (n : Nat) : Statement (.spAcoord n) := by
  refine ⟨_, rfl, word_ext ?_, (opcodeOf_eq _ 0x70000000#32 (word_ext ?_)).trans rfl⟩ <;>
  · intro i hi; interval_cases i <;> simp [encode, putField]

theorem spFinder : Statement .spFinder := by
  refine ⟨_, rfl, ?_, ?_⟩ <;> decide

theorem spTiming : Statement .spTiming := by
  refine ⟨_, rfl, ?_, ?_⟩ <;> decide

theorem spAlign : Statement .spAlign := by
  refine ⟨_, rfl, ?_, ?_⟩ <;> decide

theorem spFormat : Statement .spFormat := by
  refine ⟨_, rfl, ?_, ?_⟩ <;> decide

theorem spVersion : Statement .spVersion := by
  refine ⟨_, rfl, ?_, ?_⟩ <;> decide

theorem spDark : Statement .spDark := by
  refine ⟨_, rfl, ?_, ?_⟩ <;> decide

theorem spPlace (n : Nat) : Statement (.spPlace n) := by
  refine ⟨_, rfl, word_ext ?_, (opcodeOf_eq _ 0xA8000000#32 (word_ext ?_)).trans rfl⟩ <;>
  · intro i hi; interval_cases i <;> simp [encode, putField]

theorem dpZigzag : Statement .dpZigzag := by
  refine ⟨_, rfl, ?_, ?_⟩ <;> decide

end Sys2Proof.Laws.EncodeMeetsRow
end

