-- ==== Sys2Proof/Laws/Placement.lean ====
section
/-! SUPPORT. Where the placers write: every structure's cells lie in its symbol, and the zigzag order's in the matrix. -/

namespace Sys2Proof.Machine

/-- Every placement lies below `n` in both coordinates. -/
abbrev InSide (n : Nat) (ps : List Placement) : Prop := ∀ p ∈ ps, p.row < n ∧ p.col < n

theorem InSide.append {n : Nat} {ps qs : List Placement} (hp : InSide n ps) (hq : InSide n qs) : InSide n (ps ++ qs) := by
  intro p h
  rcases List.mem_append.1 h with h | h
  · exact hp p h
  · exact hq p h

theorem finderAt_inSide (s : Nat) (r0 c0 : Int) : InSide s (finderAt s r0 c0) := by
  intro p hp
  obtain ⟨r, -, hp⟩ := List.mem_flatMap.1 hp
  split at hp
  · cases hp
  · obtain ⟨c, -, hp⟩ := List.mem_flatMap.1 hp
    split at hp
    · cases hp
    · cases List.mem_singleton.1 hp
      dsimp only
      omega

/-- The finder patterns are clipped to the matrix (R201). -/
theorem finderCells_inSide (s : Nat) : InSide s (finderCells s) :=
  ((finderAt_inSide s 0 0).append (finderAt_inSide s (s - 7) 0)).append (finderAt_inSide s 0 (s - 7))

/-- The timing lines lie in the matrix (R203). -/
theorem timingCells_inSide (s : Nat) : InSide s (timingCells s) := by
  intro p hp
  obtain ⟨k, hk, hp⟩ := List.mem_flatMap.1 hp
  have := List.mem_range.1 hk
  simp only [List.mem_cons, List.not_mem_nil, or_false] at hp
  rcases hp with rfl | rfl <;> dsimp only <;> omega

/-- The format areas lie in a symbol (R209). -/
theorem formatCells_inSide (s : Nat) (hs : 21 ≤ s) : InSide s (formatCells s) := by
  intro p hp
  obtain ⟨i, hi, hp⟩ := List.mem_flatMap.1 hp
  have := List.mem_range.1 hi
  simp only [List.mem_cons, List.not_mem_nil, or_false] at hp
  rcases hp with rfl | rfl <;> dsimp only [formatCell1, formatCell2] <;> split_ifs <;> dsimp only <;> omega

/-- The version areas lie in a symbol (R211). -/
theorem versionCells_inSide (v s : Nat) (hs : 21 ≤ s) : InSide s (versionCells v s) := by
  intro p hp
  unfold versionCells at hp
  split at hp
  · obtain ⟨i, hi, hp⟩ := List.mem_flatMap.1 hp
    have := List.mem_range.1 hi
    simp only [List.mem_cons, List.not_mem_nil, or_false] at hp
    rcases hp with rfl | rfl <;> dsimp only [versionCell1] <;> omega
  · cases hp

/-- The dark module lies in a symbol (R214). -/
theorem darkCells_inSide (s : Nat) (hs : 21 ≤ s) : InSide s (darkCells s) := by
  intro p hp
  cases List.mem_singleton.1 hp
  dsimp only
  omega

/-- The alignment coordinates of version `v` lie between 6 and `4 v + 10` (R205). -/
theorem acoords_range : ∀ v, v < 41 → (acoords v).all (fun c => decide (6 ≤ c) && decide (c ≤ 4 * v + 10)) = true := by
  decide +kernel

/-- A coordinate the alignment positions use is one of the list. -/
theorem acoords_getD_range {v : Nat} (hv : v < 41) {i : Nat} (hi : i < (acoords v).length) :
    6 ≤ (acoords v).getD i 0 ∧ (acoords v).getD i 0 ≤ 4 * v + 10 := by
  have h := List.all_eq_true.1 (acoords_range v hv) _ (List.getElem_mem hi)
  rw [List.getD_eq_getElem _ _ hi]
  simpa using h

theorem alignOffsets_range : ∀ r ∈ alignOffsets, -2 ≤ r ∧ r ≤ 2 := by decide

/-- The alignment patterns lie in their symbol (R206, R207). -/
theorem alignAll_inSide (v : Nat) (hv : v < 41) : InSide (symbolSize v) (alignAll v) := by
  intro p hp
  obtain ⟨q, hq, hp⟩ := List.mem_flatMap.1 hp
  obtain ⟨i, hi, hq⟩ := List.mem_flatMap.1 hq
  obtain ⟨j, hj, hq⟩ := List.mem_flatMap.1 hq
  have ci := acoords_getD_range hv (List.mem_range.1 hi)
  have cj := acoords_getD_range hv (List.mem_range.1 hj)
  split at hq
  · cases hq
  · cases List.mem_singleton.1 hq
    obtain ⟨r, hr, hp⟩ := List.mem_flatMap.1 hp
    obtain ⟨c, hc, rfl⟩ := List.mem_map.1 hp
    have hr' : -2 ≤ r ∧ r ≤ 2 := alignOffsets_range r hr
    have hc' : -2 ≤ c ∧ c ≤ 2 := alignOffsets_range c hc
    dsimp only [symbolSize] at *
    omega

/-- The whole structure of a version lies in its symbol (R216). -/
theorem structureCells_inSide (v : Nat) (h1 : 1 ≤ v) (hv : v < 41) : InSide (symbolSize v) (structureCells v) := by
  have hs : 21 ≤ symbolSize v := by unfold symbolSize; omega
  exact (((((finderCells_inSide _).append (timingCells_inSide _)).append (alignAll_inSide v hv)).append
    (formatCells_inSide _ hs)).append (versionCells_inSide v _ hs)).append (darkCells_inSide _ hs)

/-- At most seven alignment coordinates (R205). -/
theorem acoords_length_le : ∀ v, v < 41 → (acoords v).length ≤ 7 := by decide +kernel

theorem walkFrom_inSide (s fuel col : Nat) (up : Bool) (h : col < s) :
    ∀ p ∈ walkFrom s fuel col up, p.1 < s ∧ p.2 < s := by
  induction fuel generalizing col up with
  | zero => intro p hp; cases hp
  | succ fuel ih =>
    intro p hp
    unfold walkFrom at hp
    split at hp
    · cases hp
    · have hc : (if col = 6 then 5 else col) < s := by split <;> omega
      generalize (if col = 6 then 5 else col) = c at hp hc
      rcases List.mem_append.1 hp with hp | hp
      · obtain ⟨r, hr, hp⟩ := List.mem_flatMap.1 hp
        have hr' : r < s := by cases up <;> simpa using hr
        simp only [List.mem_cons, List.not_mem_nil, or_false] at hp
        rcases hp with rfl | rfl
        · exact ⟨hr', hc⟩
        · exact ⟨hr', by show c - 1 < s; omega⟩
      · exact ih (c - 2) (!up) (by omega) p hp

/-- The zigzag order stays in the matrix (R241). -/
theorem zigzag_inSide (g : Grid) (s : Nat) : ∀ p ∈ zigzag g s, p.1 < s ∧ p.2 < s := by
  intro p hp
  have hw : p ∈ walk s := (List.mem_filter.1 hp).1
  by_cases hs : s = 0
  · subst hs; simp [walk, walkFrom] at hw
  · exact walkFrom_inSide s s (s - 1) true (by omega) p hw

/-- The zigzag order holds free cells only (R241). -/
theorem zigzag_free (g : Grid) (s : Nat) : ∀ p ∈ zigzag g s, (g.cell p.1 p.2).reserved = false := by
  intro p hp
  simpa using (List.mem_filter.1 hp).2

/-- Placing bits keeps the canonical form. -/
theorem wf_placeBits (g : Grid) (cw : List Byte) (k : Nat) (ps : List (Nat × Nat)) (hp : ∀ p ∈ ps, p.1 < 177 ∧ p.2 < 177)
    (hg : g.wf = true) : (placeBits g cw k ps).wf = true := by
  induction ps generalizing g k with
  | nil => exact hg
  | cons p ps ih =>
    exact ih _ _ (fun q hq => hp q (List.mem_cons_of_mem _ hq))
      (Grid.wf_setModule g _ _ _ (hp p List.mem_cons_self).1 (hp p List.mem_cons_self).2 hg)

/-- Placing bits changes no reserved flag (R242). -/
theorem reserved_placeBits (g : Grid) (cw : List Byte) (k : Nat) (ps : List (Nat × Nat)) (r c : Nat) :
    ((placeBits g cw k ps).cell r c).reserved = (g.cell r c).reserved := by
  induction ps generalizing g k with
  | nil => rfl
  | cons p ps ih => rw [placeBits, ih, Grid.reserved_setModule]

/-- Placing bits changes no cell outside the list (R242). -/
theorem cell_placeBits_other (g : Grid) (cw : List Byte) (k : Nat) (ps : List (Nat × Nat)) (r c : Nat)
    (h : ∀ p ∈ ps, cellKey r c ≠ cellKey p.1 p.2) : (placeBits g cw k ps).cell r c = g.cell r c := by
  induction ps generalizing g k with
  | nil => rfl
  | cons p ps ih =>
    rw [placeBits, ih _ _ (fun q hq => h q (List.mem_cons_of_mem _ hq)),
      Grid.cell_setModule_other g _ (h p List.mem_cons_self)]

end Sys2Proof.Machine
end

