-- ==== Sys2Proof/Laws/Step.lean ====
section
/-! SUPPORT. What a step can be, said once: the engine's turn, with the pending command decoded or rejected, or the host's. -/

namespace Sys2Proof.Machine

/-- Every step that answers a next state is an engine step of a decoded command, an ILLEGAL fault, or a host turn, in a state
with no model-only fault recorded. -/
theorem step_next_cases {s t : State} (h : step s = .next t) :
    s.faults = [] ∧
    ((s.engineTurn = true ∧ ∃ i, decode s.cmd = .cmd i ∧ exec i s = .next t) ∨
     (s.engineTurn = true ∧ ∃ why, decode s.cmd = .illegal why ∧
        t = (s.faultEntry .illegal why.sub (opcodeOf s.cmd)).endCommand) ∨
     (s.engineTurn = false ∧ t = s.hostTurn)) := by
  unfold step at h
  split at h
  · cases h
  · rename_i hf
    refine ⟨hf, ?_⟩
    by_cases he : s.engineTurn = true
    · rw [if_pos he] at h
      unfold engineStep at h
      split at h
      · rename_i i hd; exact .inl ⟨he, i, hd, h⟩
      · rename_i why hd; exact .inr (.inl ⟨he, why, hd, raise_next h⟩)
    · rw [if_neg he] at h
      exact .inr (.inr ⟨by simpa using he, by cases h; rfl⟩)

/-- What a word address can reach (20_memory R61): a register, a buffer byte within its buffer, or nothing. -/
theorem target_cases (addr : Addr) :
    (∃ r, target addr = .csr r) ∨
    (∃ b i, target addr = .byte b i ∧ i < b.size ∧ addr.toNat = b.base + i) ∨
    target addr = .unmapped := by
  unfold target
  cases hc : csrAt addr.toNat with
  | some r => exact .inl ⟨r, rfl⟩
  | none =>
    cases hb : bufferAt addr.toNat with
    | none => exact .inr (.inr rfl)
    | some p =>
      obtain ⟨b, i⟩ := p
      have h := bufferAt_some hb
      exact .inr (.inl ⟨b, i, rfl, h.2, h.1⟩)

/-- A register write is a STATUS write, a CMD write, a CW_LEN write or one that is ignored; the last two are hazards while
BUSY. -/
theorem State.writeCsr_cases (s : State) (r : Csr) (w : Word) :
    (r = .status ∧ s.writeCsr r w = s.writeStatus w) ∨ (r = .cmd ∧ s.writeCsr r w = s.writeCmd w) ∨
    (r = .cwLen ∧ s.writeCsr r w = s.unlessBusy (s.writeCwLen w)) ∨
    (r ≠ .status ∧ r ≠ .cmd ∧ r ≠ .cwLen ∧ s.writeCsr r w = s.unlessBusy s) := by
  cases r <;> simp [State.writeCsr]

end Sys2Proof.Machine
end

