-- ==== Sys2Proof/Tests/Slice0.lean ====
section
/-! SUPPORT. Tests. Expected values come from spec/: the encodings of 30_encoding R91-R93 written out bit by bit, and the vectors of
95_test_vectors sections 2.1 to 2.9. After them, for every statement with hypotheses, values that meet the hypotheses. -/

namespace Sys2Proof.Tests
open Sys2Proof Sys2Proof.Machine

/-! ### Well-formedness: one ill-formed command for each check, and the largest well-formed ones -/

theorem test_illformed_gf : (Instr.gfExp 256).wellFormed = false ∧ (Instr.gfLog 256).wellFormed = false ∧
    (Instr.gfMul 256 1).wellFormed = false ∧ (Instr.gfMul 1 256).wellFormed = false := by decide

theorem test_illformed_poly : (Instr.polyMul 4096 1).wellFormed = false ∧ (Instr.polyMul 1 4096).wellFormed = false ∧
    (Instr.polyMod 4096 1).wellFormed = false ∧ (Instr.polyMod 1 4096).wellFormed = false ∧
    (Instr.polyGen 4096).wellFormed = false := by decide

theorem test_illformed_rs_ilv : (Instr.rsInit 4096).wellFormed = false ∧ (Instr.rsEnc 4096).wellFormed = false ∧
    (Instr.ilvBuild 128 0 0).wellFormed = false ∧ (Instr.ilvBuild 0 256 0).wellFormed = false ∧
    (Instr.ilvBuild 0 0 4096).wellFormed = false := by decide

theorem test_illformed_mat : (Instr.matInit 4096).wellFormed = false ∧ (Instr.matSet 256 0 true true).wellFormed = false ∧
    (Instr.matSet 0 256 true true).wellFormed = false ∧ (Instr.matXor 256 0 true).wellFormed = false ∧
    (Instr.matXor 0 256 true).wellFormed = false ∧ (Instr.matGet 256 0).wellFormed = false ∧
    (Instr.matGet 0 256).wellFormed = false := by decide

theorem test_illformed_sp : (Instr.spAcoord 4096).wellFormed = false ∧ (Instr.spPlace 4096).wellFormed = false := by decide

theorem test_wellformed_largest : (Instr.gfMul 255 255).wellFormed = true ∧ (Instr.polyMul 4095 4095).wellFormed = true ∧
    (Instr.ilvBuild 127 255 4095).wellFormed = true ∧ (Instr.matSet 255 255 true true).wellFormed = true ∧
    (Instr.spPlace 4095).wellFormed = true := by decide

/-! ### Decoding: every constructor from a word written field by field (R91-R93) -/

/-- Format FG: opcode, eleven zeros, a, b. -/
def wordFG (op : BitVec 5) (a b : BitVec 8) : Word := op ++ 0b00000000000#11 ++ a ++ b

/-- Format FL: opcode, three zeros, p, q. -/
def wordFL (op : BitVec 5) (p q : BitVec 12) : Word := op ++ 0b000#3 ++ p ++ q

/-- Format FN: opcode, fifteen zeros, n. -/
def wordFN (op : BitVec 5) (n : BitVec 12) : Word := op ++ 0b000000000000000#15 ++ n

/-- Format FI: opcode, B, e, T. -/
def wordFI (op : BitVec 5) (B : BitVec 7) (e : BitVec 8) (T : BitVec 12) : Word := op ++ B ++ e ++ T

/-- Format FC: opcode, three zeros, r, c, six zeros, v, s. -/
def wordFC (op : BitVec 5) (r c : BitVec 8) (v sr : BitVec 1) : Word := op ++ 0b000#3 ++ r ++ c ++ 0b000000#6 ++ v ++ sr

/-- Format F0: opcode, twenty-seven zeros. -/
def wordF0 (op : BitVec 5) : Word := op ++ 0b000000000000000000000000000#27

theorem test_decode_gf : decode (wordFG 0b00001 0b10100111 0b00000000) = .cmd (.gfExp 0xA7) ∧
    decode (wordFG 0b00010 0b10100111 0b00000000) = .cmd (.gfLog 0xA7) ∧
    decode (wordFG 0b00011 0b10100111 0b00010001) = .cmd (.gfMul 0xA7 0x11) := by decide

theorem test_decode_poly : decode (wordFL 0b00100 0b100000000011 0b010000000111) = .cmd (.polyMul 0x803 0x407) ∧
    decode (wordFL 0b00101 0b100000000011 0b010000000111) = .cmd (.polyMod 0x803 0x407) ∧
    decode (wordFN 0b00110 0b100000000011) = .cmd (.polyGen 0x803) := by decide

theorem test_decode_rs_ilv : decode (wordFN 0b00111 0b100000000011) = .cmd (.rsInit 0x803) ∧
    decode (wordFN 0b01000 0b100000000011) = .cmd (.rsEnc 0x803) ∧
    decode (wordFI 0b01001 0b1000001 0b10000011 0b100000000111) = .cmd (.ilvBuild 0x41 0x83 0x807) := by decide

theorem test_decode_mat : decode (wordFN 0b01010 0b100000000011) = .cmd (.matInit 0x803) ∧
    decode (wordFC 0b01011 0b10000011 0b01000111 1 0) = .cmd (.matSet 0x83 0x47 true false) ∧
    decode (wordFC 0b01011 0b10000011 0b01000111 0 1) = .cmd (.matSet 0x83 0x47 false true) ∧
    decode (wordFC 0b01100 0b10000011 0b01000111 1 0) = .cmd (.matXor 0x83 0x47 true) ∧
    decode (wordFC 0b01101 0b10000011 0b01000111 0 0) = .cmd (.matGet 0x83 0x47) := by decide

theorem test_decode_sp : decode (wordFN 0b01110 0b100000000011) = .cmd (.spAcoord 0x803) ∧
    decode (wordF0 0b01111) = .cmd .spFinder ∧ decode (wordF0 0b10000) = .cmd .spTiming ∧
    decode (wordF0 0b10001) = .cmd .spAlign ∧ decode (wordF0 0b10010) = .cmd .spFormat ∧
    decode (wordF0 0b10011) = .cmd .spVersion ∧ decode (wordF0 0b10100) = .cmd .spDark ∧
    decode (wordFN 0b10101 0b100000000011) = .cmd (.spPlace 0x803) := by decide

theorem test_decode_dp : decode (wordF0 0b10110) = .cmd .dpZigzag := by decide

/-- The ILLEGAL vectors of 95_test_vectors 2.8.1. -/
theorem test_decode_illegal :
    ([0x00000000, 0xB8000000, 0xFFFFFFFF].all fun w : Word => decode w == .illegal .reservedOpcode) = true ∧
    ([0x08000001, 0x10000001, 0x18010000, 0x21000000, 0x30001000, 0x58000004, 0x60000001, 0x68000001, 0x78000001,
      0xB0000001].all fun w : Word => decode w == .illegal .mustBeZero) = true := by decide

/-- No word matches two rows of the opcode map (R93), and each row's match is its opcode. -/
theorem test_rows_disjoint :
    opcodeTable.Pairwise (fun a b => (a.pattern ^^^ b.pattern) &&& a.mask &&& b.mask ≠ 0) ∧
    (opcodeTable.all fun row => row.pattern == BitVec.ofNat 32 (row.opcode * 2 ^ 27)) = true := by decide

/-- Encoding: the example words of R98 with the longest operand lists. -/
theorem test_encode : encode (.ilvBuild 4 18 134) = 0x48412086 ∧ encode (.matSet 3 4 true true) = 0x58030403 ∧
    encode (.polyMod 26 11) = 0x2801A00B ∧ encode (.gfMul 0x53 0xCA) = 0x180053CA := by decide

/-! ### Helpers for the step tests -/

/-- What a command answered, if it answered a next state. -/
def checks (r : Result) (p : State → Bool) : Bool :=
  match r with
  | .next t => p t
  | .fault _ => false
  | .refused _ => false

/-- The command completed (R300) and the state meets `p`. -/
def completes (r : Result) (p : State → Bool) : Bool := checks r fun t => t.done && !t.busy && !t.err && p t

/-- The command faulted with this cause and INFO (R302, R303). -/
def faultsWith (r : Result) (cause : BitVec 8) (info : Word) : Bool :=
  checks r fun t => t.err && !t.busy && !t.done && t.cause == cause && t.info == info

/-- The reset state with bytes in a buffer. -/
def State.load (s : State) (b : Buffer) (bs : List Byte) : State := { s with mem := s.mem.writeRange b.base bs }

/-- A state with an empty matrix of side `n`. -/
def blank (n : Nat) : State := State.reset.withNewMatrix n

/-- A state with polynomials in POLY_A and POLY_B. -/
def polys (a b : List Byte) : State := State.load (State.load State.reset .polyA a) .polyB b

/-- POLY_R[0..n) and R_LEN = n. -/
def polyRIs (t : State) (r : List Byte) : Bool := t.bytes .polyR r.length == some r && t.rLen.toNat == r.length

/-- What MAT.GET reads at a cell (R186). -/
def at' (t : State) (r c : Nat) : Nat := (t.cell r c).value.toNat

/-- A row of the matrix as 95_test_vectors prints it, read as one decimal number. -/
def rowOf' (t : State) (r : Nat) : Nat := (List.range t.side).foldl (fun acc c => 10 * acc + at' t r c) 0

/-! ### One step of each command (95_test_vectors 2.1 to 2.7) -/

theorem test_gf_exp : completes (exec (.gfExp 8) State.reset) (fun t => t.result == 29) = true ∧
    completes (exec (.gfExp 255) State.reset) (fun t => t.result == 1) = true := by decide

theorem test_gf_log : completes (exec (.gfLog 142) State.reset) (fun t => t.result == 254) = true ∧
    faultsWith (exec (.gfLog 0) State.reset) 2 0x01000000 = true := by decide

theorem test_gf_mul : completes (exec (.gfMul 0x53 0xCA) State.reset) (fun t => t.result == 143) = true ∧
    completes (exec (.gfMul 77 0) State.reset) (fun t => t.result == 0) = true := by decide

theorem test_poly_mul : completes (exec (.polyMul 2 3) (polys [2, 3] [4, 5, 6])) (fun t => polyRIs t [8, 6, 3, 10]) = true := by
  decide +kernel

theorem test_poly_mul_keeps_leading_zero :
    completes (exec (.polyMul 1 2) (polys [0] [7, 7])) (fun t => polyRIs t [0, 0]) = true := by decide +kernel

theorem test_poly_mod :
    completes (exec (.polyMod 6 3) (polys [0, 0, 0, 7, 1, 0] [1, 3, 2])) (fun t => polyRIs t [8, 14]) = true := by
  decide +kernel

theorem test_poly_mod_strips_short_dividend :
    completes (exec (.polyMod 2 3) (polys [0, 5] [1, 2, 3])) (fun t => polyRIs t [5]) = true := by decide +kernel

theorem test_poly_gen : completes (exec (.polyGen 3) State.reset) (fun t => polyRIs t [1, 7, 14, 8]) = true := by
  decide +kernel

theorem test_rs_init : completes (exec (.rsInit 2) State.reset)
    (fun t => t.rsValid && t.rsDeg == 2 && t.bytes .gen 4 == some [1, 3, 2, 0]) = true := by decide +kernel

theorem test_rs_enc : completes (exec (.rsEnc 2) ((State.load State.reset .polyA [0, 1]).withRs 2 [1, 3, 2]))
    (fun t => polyRIs t [3, 2]) = true := by decide +kernel

theorem test_rs_enc_pads_left : completes (exec (.rsEnc 2) ((State.load State.reset .polyA [0, 0]).withRs 2 [1, 3, 2]))
    (fun t => polyRIs t [0, 0]) = true := by decide +kernel

theorem test_ilv_build : completes (exec (.ilvBuild 2 2 9) (State.load State.reset .cwIn [1, 2, 3, 4, 5]))
    (fun t => t.bytes .cwOut 9 == some [1, 3, 2, 4, 5, 1, 2, 2, 0] && t.cwLen == 9 && t.rsDeg == 2 && t.rsValid &&
      t.bytes .gen 4 == some [1, 3, 2, 0]) = true := by decide +kernel

theorem test_ilv_build_empty_blocks : completes (exec (.ilvBuild 4 1 6) (State.load State.reset .cwIn [9, 8]))
    (fun t => t.bytes .cwOut 6 == some [9, 8, 0, 0, 9, 8]) = true := by decide +kernel

theorem test_mat_init : completes (exec (.matInit 177) (blank 21)) (fun t => t.matSize == 177) = true ∧
    faultsWith (exec (.matInit 178) State.reset) 4 0x010000B2 = true := by decide

theorem test_mat_set_keeps_reserved :
    completes (exec (.matSet 3 4 false false) ((blank 21).withGrid (Grid.place [] 3 4 true))) (fun t => at' t 3 4 == 2) = true ∧
    completes (exec (.matSet 3 4 true false) (blank 21)) (fun t => at' t 3 4 == 1 && at' t 4 3 == 0) = true := by decide

theorem test_mat_xor_flips_reserved :
    completes (exec (.matXor 5 5 true) ((blank 21).withGrid (Grid.place [] 5 5 true))) (fun t => at' t 5 5 == 2) = true := by
  decide

theorem test_mat_get : completes (exec (.matGet 3 4) ((blank 21).withGrid (Grid.place [] 3 4 true)))
    (fun t => t.result == 3) = true ∧
    faultsWith (exec (.matGet 21 0) (blank 21)) 4 0x03001500 = true := by decide

theorem test_sp_acoord : completes (exec (.spAcoord 32) State.reset)
    (fun t => t.alignN == 6 && t.alignC.toList == [6, 34, 60, 86, 112, 138, 0]) = true ∧
    faultsWith (exec (.spAcoord 41) State.reset) 6 0x02000029 = true := by decide +kernel

theorem test_sp_finder : completes (exec .spFinder (blank 21))
    (fun t => at' t 0 0 == 3 && at' t 7 7 == 2 && at' t 3 17 == 3 && at' t 8 8 == 0) = true := by decide +kernel

theorem test_sp_finder_geometry : faultsWith (exec .spFinder (blank 22)) 6 0x01000016 = true ∧
    faultsWith (exec .spFinder State.reset) 4 0x02000000 = true := by decide

theorem test_sp_timing : completes (exec .spTiming (blank 21))
    (fun t => at' t 6 8 == 3 && at' t 6 9 == 2 && at' t 12 6 == 3 && at' t 6 13 == 0) = true := by decide +kernel

theorem test_sp_align : completes (exec .spAlign (blank 25))
    (fun t => at' t 18 18 == 3 && at' t 17 17 == 2 && at' t 16 16 == 3 && at' t 16 20 == 3 && at' t 6 6 == 0) = true := by
  decide +kernel

theorem test_sp_align_version_1 : completes (exec .spAlign (blank 21)) (fun t => t.grid == []) = true := by decide

theorem test_sp_format : completes (exec .spFormat (blank 21))
    (fun t => at' t 0 8 == 2 && at' t 8 20 == 2 && at' t 8 7 == 2 && at' t 14 8 == 2 && at' t 13 8 == 0) = true := by
  decide +kernel

theorem test_sp_version : completes (exec .spVersion (blank 45))
    (fun t => at' t 0 34 == 2 && at' t 5 36 == 2 && at' t 34 0 == 2 && at' t 36 5 == 2) = true ∧
    completes (exec .spVersion (blank 21)) (fun t => t.grid == []) = true := by decide +kernel

theorem test_sp_dark : completes (exec .spDark (blank 21)) (fun t => at' t 13 8 == 3 && at' t 12 8 == 0) = true := by decide

/-- Rows 0, 6, 8, 13 and 20 of the grid of 95_test_vectors 2.6.3. -/
theorem test_sp_place : completes (exec (.spPlace 1) State.reset)
    (fun t => t.matSize == 21 && [0, 6, 8, 13, 20].map (rowOf' t) ==
      [333333322000023333333, 333333323232323333333, 222222322000022222222, 222222223000000000000, 333333322000000000000]) =
    true := by decide +kernel

/-- The grid of program P7 for side 4. -/
theorem test_dp_zigzag : completes (exec .dpZigzag (State.writeCwLen (State.load (blank 4) .cwOut [0xA5, 0x0F]) 2))
    (fun t => (List.range 4).map (rowOf' t) == [10, 10, 1101, 1101]) = true := by decide +kernel

theorem test_dp_zigzag_too_long :
    faultsWith (exec .dpZigzag (State.writeCwLen (State.load (blank 3) .cwOut [0xA5]) 1)) 5 0x05000001 = true := by decide

/-- Operand faults in the order of their checks (95_test_vectors 2.8.2). -/
theorem test_operand_faults : faultsWith (exec (.polyMul 0 0) State.reset) 5 0x01000000 = true ∧
    faultsWith (exec (.polyMul 200 100) State.reset) 5 0x0300012B = true ∧
    faultsWith (exec (.polyMod 300 0) State.reset) 5 0x0100012C = true ∧
    faultsWith (exec (.polyMod 3 3) (polys [] [2])) 2 0x02000002 = true ∧
    faultsWith (exec (.rsEnc 300) State.reset) 3 0 = true ∧
    faultsWith (exec (.ilvBuild 127 255 4095) State.reset) 7 0x02007E81 = true := by decide

/-! ### Host port (95_test_vectors 2.9) -/

theorem test_port_read : State.reset.memRead 0x0000 = .data 0x51520107 ∧ State.reset.memRead 0x0001 = .data 0 ∧
    State.reset.memRead 0x1000 = .modelFault .uninitRead ∧ State.reset.memRead 0x3005 = .modelFault .uninitRead ∧
    State.reset.memRead 0x000B = .modelFault .busError ∧ State.reset.memRead 0x0017 = .modelFault .busError := by decide

theorem test_port_write : (State.reset.memWrite 0x1000 0x1FF).memRead 0x1000 = .data 0xFF ∧
    (State.reset.memWrite 0x0008 0xFFFFF123).memRead 0x0008 = .data 0x123 ∧
    (State.reset.memWrite 0x1200 9).memRead 0x1200 = .data 0 ∧ (State.reset.memWrite 0x0005 5).memRead 0x0005 = .data 0 ∧
    State.reset.memWrite 0x4000 1 = State.reset.record .busError := by decide

theorem test_status_write :
    ({ State.reset with done := true, err := true, cause := 2, info := 0x01000000 }.memWrite 0x0001 2).statusWord = 4 ∧
    ({ State.reset with err := true, cause := 2, info := 0x01000000 }.memWrite 0x0001 4) = State.reset ∧
    ({ State.reset with done := true, rsValid := true }.memWrite 0x0001 0xFFFFFFFF).statusWord = 0x10 := by decide

theorem test_cmd_write_dropped :
    (let s := State.reset.faultedWith 2 0x01000000; s.memWrite 0x0004 0x08000100 = s) ∧
    (let s := State.reset.withPending 0x08000100
     s.memWrite 0x0004 0x10000100 = { s with ovr := true, faults := [.cmdWhileBusy] } ∧
     s.memRead 0x0005 = .modelFault .busyAccess ∧ s.memRead 0x0001 = .data 1) := by decide

/-- The host script of R99. -/
theorem test_host_script : hostExec (.polyMul 2 3) = [.wr 0x0004 0x20002003, .wait] ∧
    hostLoad .polyB 1 [4, 5] = [.wr 0x1101 4, .wr 0x1102 5] ∧ hostClr = [.wr 0x0001 0xE] := by decide

/-! ### Witnesses: for every statement with hypotheses, values that meet all of them together, for each clause and at the ends of
its ranges -/

/-- The reset state with a script. -/
def scripted (l : List HostOp) : State := { State.reset with script := l }

/-- A pending command with `n` host actions before its engine step. -/
def pending (w : Word) (n : Nat) (l : List HostOp) : State := { State.reset.withPending w with lat := n, script := l }

/-- A loaded buffer holds what was loaded. -/
theorem load_holds (s : State) (b : Buffer) (bs : List Byte) : (State.load s b bs).Holds b bs := fun i hi =>
  Memory.read_writeRange_inside s.mem b.base i bs hi

/-- Both polynomials stand in their buffers. -/
theorem polys_hold (a b : List Byte) (ha : a.length ≤ 256) : (polys a b).Holds .polyA a ∧ (polys a b).Holds .polyB b := by
  refine ⟨fun i hi => ?_, load_holds _ .polyB b⟩
  exact (Memory.read_writeRange_other _ 0x1100 (0x1000 + i) b (by omega)).trans (load_holds State.reset .polyA a i hi)

/-- A new generator leaves POLY_A as it was. -/
theorem withRs_holds (s : State) (n : Nat) (g a : List Byte) (ha : a.length ≤ 256) :
    ((State.load s .polyA a).withRs n g).Holds .polyA a := fun i hi =>
  (State.read_withRs_other (State.load s .polyA a) n g (0x1000 + i) (by omega)).trans (load_holds s .polyA a i hi)

theorem test_witness_DecodeOfEncode : (Instr.ilvBuild 127 255 4095).wellFormed = true ∧ (Instr.gfExp 0).wellFormed = true := by
  decide

theorem test_witness_EncodeOfDecode : decode 0x4FFFFFFF = .cmd (.ilvBuild 127 255 4095) ∧ decode 0xB0000000 = .cmd .dpZigzag := by
  decide

theorem test_witness_ReservedOpcodeRaisesIllegal :
    [0x00000000, 0x07FFFFFF, 0xB8000000, 0xFFFFFFFF].all (fun w : Word =>
      let s := State.reset.withPending w
      s.faults == [] && s.engineTurn && (s.cmd.toNat / 2 ^ 27 == 0 || decide (0x17 ≤ s.cmd.toNat / 2 ^ 27))) = true := by decide

theorem test_witness_MustBeZeroBitRaisesIllegal :
    [(0x21000000, 24), (0x24000000, 26), (0x78000001, 0), (0x60000001, 0)].all (fun x : Word × Nat =>
      let s := State.reset.withPending x.1
      s.faults == [] && s.engineTurn && decide (x.2 < 27) && s.cmd.getLsbD x.2 &&
        opcodeTable.any (fun row => s.cmd.toNat / 2 ^ 27 == row.opcode && row.mask.getLsbD x.2)) = true := by decide

theorem test_witness_StepPerformsPendingCommand :
    (let s := State.reset.withPending 0x08000800
     s.faults = [] ∧ s.engineTurn = true ∧ decode s.cmd = .cmd (.gfExp 8)) ∧
    decodeTableWord 32 0x08000800 = some (.gfExp 8) := by decide

theorem test_witness_HostTurnPerformsAccess :
    (State.reset.engineTurn = false ∧ State.reset.script = []) ∧
    ((scripted [.rd 0]).engineTurn = false ∧ (scripted [.rd 0]).memRead 0 = .data 0x51520107) ∧
    ((scripted [.rd 0x1000]).engineTurn = false ∧ (scripted [.rd 0x1000]).memRead 0x1000 = .modelFault .uninitRead) ∧
    (scripted [.wr 8 1]).engineTurn = false ∧
    ((scripted [.wait]).engineTurn = false ∧ (scripted [.wait]).busy = false) ∧
    ((pending 0x08000800 1 [.wait]).engineTurn = false ∧ (pending 0x08000800 1 [.wait]).busy = true) := by decide

theorem test_witness_ResetInputResets :
    ((scripted [.reset]).faults = [] ∧ (scripted [.reset]).engineTurn = false) ∧
    ((pending 0x08000800 1 [.reset]).faults = [] ∧ (pending 0x08000800 1 [.reset]).engineTurn = false) := by decide

theorem test_witness_FaultedStateHasNoStep : (State.reset.record .busError).faults = [.busError] := by decide

theorem test_witness_WaitEnds : (pending 0x08000800 3 [.wait]).faults = [] ∧ (pending 0x08000800 3 [.wait]).busy = true ∧
    (pending 0x08000800 3 [.wait]).script = [.wait] := by decide

theorem test_witness_field : (0 < 256 ∧ 255 < 256) ∧ (255 ≠ 0 ∧ (0 : Nat) = 0) ∧ (255 : Byte) ≠ 0 := by decide

theorem test_witness_ScalarFrame : (∃ t, exec (.gfLog 0) State.reset = .next t) ∧ (∃ t, exec (.gfExp 1) State.reset = .next t) ∧
    (∃ t, exec (.gfMul 3 3) State.reset = .next t) ∧ (∃ t, exec (.matGet 0 0) State.reset = .next t) ∧
    (∃ t, exec (.spAcoord 7) State.reset = .next t) :=
  ⟨⟨_, rfl⟩, ⟨_, rfl⟩, ⟨_, rfl⟩, ⟨_, rfl⟩, ⟨_, rfl⟩⟩

theorem test_witness_PolyMulResult :
    ((polys (List.replicate 256 7) [9]).Holds .polyA (List.replicate 256 7) ∧ (polys (List.replicate 256 7) [9]).Holds .polyB [9]) ∧
    ((polys [9] (List.replicate 256 7)).Holds .polyA [9] ∧ (polys [9] (List.replicate 256 7)).Holds .polyB (List.replicate 256 7)) ∧
    256 + 1 - 1 ≤ 256 := 
  ⟨polys_hold _ _ List.length_replicate.le, polys_hold _ _ (by decide), by decide⟩

theorem test_witness_PolyModResult :
    ((polys [] [1]).Holds .polyA [] ∧ (polys [] [1]).Holds .polyB [1]) ∧ [1].headD (0 : Byte) = 1 ∧
    ((polys (List.replicate 256 7) (1 :: List.replicate 255 0)).Holds .polyA (List.replicate 256 7) ∧
      (polys (List.replicate 256 7) (1 :: List.replicate 255 0)).Holds .polyB (1 :: List.replicate 255 0)) ∧
    (1 :: List.replicate 255 (0 : Byte)).length = 256 := 
  ⟨polys_hold _ _ (by decide), by decide, polys_hold _ _ List.length_replicate.le,
    by rw [List.length_cons, List.length_replicate]⟩

theorem test_witness_PolyFaults : (257 < 4096 ∧ 256 < 257) ∧ (1 ≤ 256 ∧ 256 ≤ 256 ∧ 256 < 4095) ∧ 256 < 256 + 2 - 1 ∧
    (polys [] [2]).mem.read Buffer.polyB.base = some 2 ∧ (2 : Byte) ≠ 1 := by decide +kernel

theorem test_witness_PolyFrame : (∃ t, exec (.polyMul 1 1) State.reset = .next t) ∧ (∃ t, exec (.polyMod 0 1) State.reset = .next t) ∧
    (∃ t, exec (.polyGen 2) State.reset = .next t) ∧ (∃ t, exec (.rsEnc 0) State.reset = .next t) :=
  ⟨⟨_, rfl⟩, ⟨_, rfl⟩, ⟨_, rfl⟩, ⟨_, rfl⟩⟩

/-- PolyGenResult and RsInitResult at both ends of their ranges. -/
theorem test_witness_degrees : (0 ≤ 255 ∧ 255 ≤ 255) ∧ (255 < 256 ∧ 255 < 4095 ∧ 4095 < 4096) := by decide

theorem test_witness_RsEncResult :
    (((State.load State.reset .polyA (List.replicate 256 5)).withRs 0 [1]).RsInv ∧
      ((State.load State.reset .polyA (List.replicate 256 5)).withRs 0 [1]).Holds .polyA (List.replicate 256 5)) ∧
    ((State.reset.withRs 2 [1, 3, 2]).rsValid = true ∧ (State.reset.withRs 2 [1, 3, 2]).RsInv) := by
  refine ⟨⟨⟨fun h => absurd (show true = false from h) (by decide), fun _ => ?_⟩,
    withRs_holds _ _ _ _ List.length_replicate.le⟩, rfl, ⟨fun h => absurd (show true = false from h) (by decide), fun _ => ?_⟩⟩
  · exact (State.bytes_eq_some _ .gen 256 _).2 ⟨padTo_length _ _, fun i hi =>
      (State.read_withRs _ 0 [1] i hi).trans (congrArg some (padTo_getD 256 i [1] hi).symm)⟩
  · exact (State.bytes_eq_some _ .gen 256 _).2 ⟨padTo_length _ _, fun i hi =>
      (State.read_withRs _ 2 [1, 3, 2] i hi).trans
        (congrArg some ((padTo_getD 256 i [1, 3, 2] hi).symm.trans (by rw [show [1, 3, 2] = polygen 2 by decide]; rfl)))⟩

theorem test_witness_RsAndIlvFaults : State.reset.rsValid = false ∧ (State.reset.withRs 0 [1]).rsValid = true ∧ 256 < 257 ∧
    (1 ≤ 1 ∧ 0 < 1 * 1) ∧ (127 < 128 ∧ 255 < 256 ∧ 4095 < 127 * 255) := by decide +kernel

/-- Both groups present (B = 2 over five codewords), no group-1 codeword (16 blocks over 15), the longest EC and stream. -/
theorem test_witness_IlvBuildResult :
    (State.load State.reset .cwIn [1, 2, 3, 4, 5]).Holds .cwIn [1, 2, 3, 4, 5] ∧ 5 = 9 - 2 * 2 ∧
    (State.load State.reset .cwIn (List.replicate 15 7)).Holds .cwIn (List.replicate 15 7) ∧ 15 = 4095 - 16 * 255 ∧
    (State.load State.reset .cwIn (List.replicate 4095 7)).Holds .cwIn (List.replicate 4095 7) ∧ 4095 = 4095 - 127 * 0 :=
  ⟨load_holds _ _ _, rfl, load_holds _ _ _, rfl, load_holds _ _ _, rfl⟩

theorem test_witness_RsStateFrame : (∃ t, exec (.rsInit 2) State.reset = .next t) ∧
    (∃ t, exec (.ilvBuild 1 0 0) State.reset = .next t) := ⟨⟨_, rfl⟩, ⟨_, rfl⟩⟩

theorem test_witness_MatInitResult : (1 ≤ 1 ∧ 1 ≤ 177 ∧ 177 ≤ 177) ∧ (177 < 178 ∧ 178 < 4096) := by decide

/-- MatSetResult, MatXorResult and MatGetResult: the last cell of the largest matrix and the only cell of the smallest. -/
theorem test_witness_cells : 176 < (blank 177).matSize.toNat ∧ 0 < (blank 1).matSize.toNat := by decide

theorem test_witness_CellCheckFaults : State.reset.matSize.toNat = 0 ∧
    ((blank 21).matSize.toNat ≠ 0 ∧ (blank 21).matSize.toNat ≤ 21 ∧ 21 < 256 ∧ 0 < 256) := by decide

theorem test_witness_MatrixFrame : (∃ t, exec (.matSet 0 0 true true) (blank 1) = .next t) ∧
    (∃ t, exec (.matXor 0 0 true) (blank 1) = .next t) ∧ (∃ t, exec .spFinder (blank 21) = .next t) ∧
    (∃ t, exec .spTiming (blank 21) = .next t) ∧ (∃ t, exec .spAlign (blank 21) = .next t) ∧
    (∃ t, exec .spFormat (blank 21) = .next t) ∧ (∃ t, exec .spVersion (blank 21) = .next t) ∧
    (∃ t, exec .spDark (blank 21) = .next t) ∧ (∃ t, exec (.matInit 1) State.reset = .next t) ∧
    (∃ t, exec (.spPlace 1) State.reset = .next t) ∧ (∃ t, exec .dpZigzag State.reset = .next t) :=
  ⟨⟨_, rfl⟩, ⟨_, rfl⟩, ⟨_, rfl⟩, ⟨_, rfl⟩, ⟨_, rfl⟩, ⟨_, rfl⟩, ⟨_, rfl⟩, ⟨_, rfl⟩, ⟨_, rfl⟩, ⟨_, rfl⟩, ⟨_, rfl⟩⟩

/-- SpAcoordResult, SpPlaceResult and StructureOrderIrrelevant at both ends of the versions. -/
theorem test_witness_versions : (0 < 1 ∧ 40 < 41 ∧ 41 < 4096) ∧ (1 ≤ 1 ∧ 1 ≤ 40 ∧ 40 ≤ 40) := by decide

theorem test_witness_StructureOrderIrrelevant :
    [Instr.spDark, .spVersion, .spFormat, .spAlign, .spTiming, .spFinder].Perm
      [.spFinder, .spTiming, .spAlign, .spFormat, .spVersion, .spDark] := by decide

/-- The six placers' statements, at versions 1 and 40. -/
theorem test_witness_placers : (blank 21).matSize.toNat = 4 * 1 + 17 ∧ (blank 177).matSize.toNat = 4 * 40 + 17 := by decide

/-- SpAlignResult: a cell in an alignment pattern of version 2, on its second ring, and one in none. -/
theorem test_witness_SpAlignResult : (acoords 2).length = 2 ∧
    ring 16 20 ((acoords 2).getD 1 0) ((acoords 2).getD 1 0) = 2 ∧
    ring 0 0 ((acoords 2).getD 1 0) ((acoords 2).getD 1 0) = 18 := by decide

theorem test_witness_GeometryFaults : State.reset.matSize.toNat = 0 ∧ (blank 20).matSize.toNat < 21 ∧
    ((blank 22).matSize.toNat - 17) % 4 ≠ 0 := by decide

/-- ZigzagResult: a stream that fills the order exactly, and an empty one on the one-cell matrix, whose order is empty. -/
theorem test_witness_ZigzagResult :
    (let s := State.writeCwLen (State.load (blank 4) .cwOut [0xA5, 0x0F]) 2
     s.matSize.toNat ≠ 0 ∧ s.Holds .cwOut [0xA5, 0x0F] ∧ s.cwLen.toNat = 2 ∧ 8 * 2 = (zigzag s.grid s.matSize.toNat).length) ∧
    (zigzag (blank 1).grid 1).length = 0 ∧ (blank 1).cwLen.toNat = 0 := by decide +kernel

theorem test_witness_ZigzagFaults : State.reset.matSize.toNat = 0 ∧
    (let s := State.writeCwLen (blank 3) 1
     s.matSize.toNat ≠ 0 ∧ (zigzag s.grid s.matSize.toNat).length < 8 * s.cwLen.toNat) := by decide +kernel

/-- ZigzagOrderCovers: one side of each kind, and the largest; the orders of sides 3 and 4 (95_test_vectors 2.7.3), and that the first
cell of the strip (5, 4) comes right after the last of the strip (8, 7) on the unreserved side 21, where column 6 is skipped. -/
theorem test_witness_ZigzagOrderCovers : (1 ≤ 1 ∧ 5 ≤ 177 ∧ 7 ≤ 177 ∧ 8 ≤ 177 ∧ 177 ≤ 177) ∧ 7 % 2 = 1 ∧ 5 % 2 = 1 ∧ 8 % 2 = 0 ∧
    zigzag [] 3 = [(2, 2), (2, 1), (1, 2), (1, 1), (0, 2), (0, 1)] ∧
    zigzag [] 4 = [(3, 3), (3, 2), (2, 3), (2, 2), (1, 3), (1, 2), (0, 3), (0, 2),
      (0, 1), (0, 0), (1, 1), (1, 0), (2, 1), (2, 0), (3, 1), (3, 0)] ∧
    visitPlace 21 (0, 5) = visitPlace 21 (0, 7) + 1 := by
  decide

theorem test_witness_FaultedCommandWritesNothing :
    ∃ t, exec (.gfLog 0) State.reset = .next t ∧ State.reset.err = false ∧ t.err = true := ⟨_, rfl, rfl, rfl⟩

theorem test_witness_ReservedFlagsStick :
    (∃ t, exec (.matXor 5 5 true) ((blank 21).withGrid (Grid.place [] 5 5 true)) = .next t) ∧
    (((blank 21).withGrid (Grid.place [] 5 5 true)).cell 5 5).reserved = true := ⟨⟨_, rfl⟩, by decide⟩

theorem test_witness_StepKeepsInvariant :
    (scripted [.wr 0x1000 5]).Inv ∧ (∃ t, step (scripted [.wr 0x1000 5]) = .next t) ∧
    (State.reset.withPending 0x10000000).Inv ∧ (∃ t, step (State.reset.withPending 0x10000000) = .next t) :=
  ⟨by decide, ⟨_, rfl⟩, by decide, ⟨_, rfl⟩⟩

theorem test_witness_OnlyResetClearsRsValid :
    let s := { scripted [.reset] with rsValid := true }
    step s = .next s.hostTurn ∧ s.rsValid = true ∧ s.hostTurn.rsValid = false := ⟨rfl, rfl, rfl⟩

theorem test_witness_CmdWriteRule : (State.reset.withPending 0).busy = true ∧
    ((State.reset.faultedWith 2 0x01000000).busy = false ∧ (State.reset.faultedWith 2 0x01000000).err = true) ∧
    (State.reset.busy = false ∧ State.reset.err = false) := by decide

/-- The host-port statements, at the ends of every address range. -/
theorem test_witness_addresses : State.reset.busy = false ∧ State.reset.mem.read 0x1200 = some 0 ∧ State.reset.mem.read 0x13FF = some 0 ∧ (State.reset.withPending 0).busy = true ∧
    ([0x1000, 0x11FF, 0x2000, 0x3FFF].all fun a : Addr => decide
      ((0x1000 ≤ a.toNat ∧ a.toNat ≤ 0x11FF) ∨ (0x2000 ≤ a.toNat ∧ a.toNat ≤ 0x3FFF))) = true ∧
    ([0x000B, 0x000F, 0x0017, 0x0FFF, 0x1400, 0x1FFF, 0x4000, 0xFFFF].all fun a : Addr => target a == .unmapped) = true ∧
    ([0x0000, 0x000A, 0x0010, 0x0016, 0x1000, 0x13FF, 0x2000, 0x3FFF].all fun a : Addr => target a != .unmapped) = true := by
  decide

theorem test_witness_UninitReadIsRecorded :
    (State.reset.mem.read (Buffer.polyA.base + 255) = none ∧ State.reset.mem.read (Buffer.cwOut.base + 4095) = none) ∧
    (polys [1] []).mem.read Buffer.polyB.base = none ∧
    ((polys [] [1]).mem.read Buffer.polyB.base = some 1 ∧ (polys [] [1]).mem.read (Buffer.polyA.base + 0) = none) ∧
    ((State.reset.withRs 0 [1]).rsValid = true ∧ (State.reset.withRs 0 [1]).mem.read (Buffer.polyA.base + 0) = none) ∧
    (1 ≤ 1 ∧ 1 * 0 ≤ 1 ∧ State.reset.mem.read (Buffer.cwIn.base + 0) = none) ∧
    (let s := State.writeCwLen (blank 4) 2
     s.matSize.toNat ≠ 0 ∧ 8 * s.cwLen.toNat ≤ (zigzag s.grid s.matSize.toNat).length ∧
     s.mem.read (Buffer.cwOut.base + 1) = none) := by decide +kernel

end Sys2Proof.Tests
end

section
/-! PROOFS. What an access of the host port does, said once per kind of address, and the two statements of 10_state about the
registers. -/

namespace Sys2Proof.Machine

/-! ### An access by what its address reaches -/

theorem State.memRead_csr_idle {s : State} {addr : Addr} {r : Csr} (ht : target addr = .csr r) (hidle : s.busy = false) :
    s.memRead addr = .data (s.readCsr r) := by
  simp [State.memRead, ht, hidle]

theorem State.memWrite_csr {addr : Addr} {r : Csr} (ht : target addr = .csr r) (s : State) (w : Word) :
    s.memWrite addr w = s.writeCsr r w := by
  simp [State.memWrite, ht]

theorem State.memWrite_byte {addr : Addr} {b : Buffer} {i : Nat} (ht : target addr = .byte b i) (s : State) (w : Word) :
    s.memWrite addr w = s.unlessBusy (s.writeByte b i w) := by
  simp [State.memWrite, ht]

theorem State.unlessBusy_idle {s : State} (hidle : s.busy = false) (s' : State) : s.unlessBusy s' = s' := by
  simp [State.unlessBusy, hidle]

theorem State.memWrite_cwLen_idle {s : State} (hidle : s.busy = false) (w : Word) :
    s.memWrite 0x0008 w = s.writeCwLen w :=
  (s.memWrite_csr (r := .cwLen) rfl w).trans (State.unlessBusy_idle hidle _)

theorem csrAt_none {n : Nat} (hn : 0x17 ≤ n) : csrAt n = none := by
  obtain ⟨k, rfl⟩ := Nat.exists_eq_add_of_le' hn
  rfl

theorem Buffer.base_ge (b : Buffer) : 0x1000 ≤ b.base := by
  cases b <;> decide

/-- The address of each buffer byte reaches it (20_memory R61). -/
theorem target_base {addr : Addr} {b : Buffer} {i : Nat} (hi : i < b.size) (ha : addr.toNat = b.base + i) :
    target addr = .byte b i := by
  have hcsr : csrAt addr.toNat = none := csrAt_none (by have := b.base_ge; omega)
  have hbuf : bufferAt addr.toNat = some (b, i) := by rw [ha, bufferAt_base b i hi]
  simp [target, hcsr, hbuf]

theorem target_alignC : ∀ k : Fin 7, target (0x0010 + BitVec.ofNat 16 k.val) = .csr (.alignC k) := by decide

/-! ### The words of STATUS and CW_LEN -/

theorem flagBits_eq_ofNat : ∀ busy done err ovr rsValid : Bool,
    flagBit 0 busy ||| flagBit 1 done ||| flagBit 2 err ||| flagBit 3 ovr ||| flagBit 4 rsValid =
      BitVec.ofNat 32 (busy.toNat + 2 * done.toNat + 4 * err.toNat + 8 * ovr.toNat + 16 * rsValid.toNat) := by
  decide

/-- The fields of STATUS at their places (10_state R23). -/
theorem State.statusWord_eq_ofNat (s : State) :
    s.statusWord = BitVec.ofNat 32 (s.busy.toNat + 2 * s.done.toNat + 4 * s.err.toNat + 8 * s.ovr.toNat +
      16 * s.rsValid.toNat) :=
  flagBits_eq_ofNat ..

theorem setWidth_twelve_setWidth (w : Word) : (w.setWidth 12).setWidth 32 = w &&& 0xFFF := by
  apply BitVec.eq_of_toNat_eq
  have hmask : (w &&& 0xFFF).toNat = w.toNat % 2 ^ 12 := Nat.and_two_pow_sub_one_eq_mod w.toNat 12
  rw [hmask, BitVec.toNat_setWidth, BitVec.toNat_setWidth]
  omega

/-! ### Writes that are ignored -/

/-- Whether a host write to the register is ignored (10_state R36): all but STATUS, CMD and CW_LEN. -/
def Csr.readOnly (r : Csr) : Bool := r != .status && r != .cmd && r != .cwLen

theorem State.writeCsr_readOnly {r : Csr} (hr : r.readOnly = true) (s : State) (w : Word) :
    s.writeCsr r w = s.unlessBusy s := by
  obtain ⟨rfl, -⟩ | ⟨rfl, -⟩ | ⟨rfl, -⟩ | ⟨-, -, -, h⟩ := s.writeCsr_cases r w
  · cases hr
  · cases hr
  · cases hr
  · exact h

theorem csrAt_readOnly : ∀ n, n < 0x17 →
    (n = 0 ∨ n = 2 ∨ n = 3 ∨ n = 5 ∨ n = 6 ∨ n = 7 ∨ n = 9 ∨ n = 10 ∨ 0x10 ≤ n) →
    (csrAt n).any Csr.readOnly = true := by
  decide

/-- The read-only registers by their addresses (10_state R36). -/
theorem target_readOnlyCsr {addr : Addr}
    (ha : addr.toNat = 0 ∨ addr.toNat = 2 ∨ addr.toNat = 3 ∨ addr.toNat = 5 ∨ addr.toNat = 6 ∨ addr.toNat = 7 ∨
      addr.toNat = 9 ∨ addr.toNat = 10 ∨ (0x10 ≤ addr.toNat ∧ addr.toNat ≤ 0x16)) :
    ∃ r, target addr = .csr r ∧ r.readOnly = true := by
  obtain ⟨r, hr, hro⟩ := (Option.any_eq_true ..).1 (csrAt_readOnly addr.toNat (by omega) (by omega))
  exact ⟨r, by simp [target, hr], hro⟩

/-- The read-only windows, POLY_R and GEN, by their addresses (20_memory R61, R64). -/
theorem target_readOnlyWindow {addr : Addr} (ha : 0x1200 ≤ addr.toNat ∧ addr.toNat ≤ 0x13FF) :
    ∃ b i, target addr = .byte b i ∧ b.hostWritable = false := by
  by_cases hp : addr.toNat < 0x1300
  · exact ⟨.polyR, addr.toNat - 0x1200, target_base (show _ < 0x100 by omega) (show _ = 0x1200 + _ by omega), rfl⟩
  · exact ⟨.gen, addr.toNat - 0x1300, target_base (show _ < 0x100 by omega) (show _ = 0x1300 + _ by omega), rfl⟩

theorem State.memWrite_readOnlyCsr {s : State} {addr : Addr} {r : Csr} (hidle : s.busy = false)
    (ht : target addr = .csr r) (hr : r.readOnly = true) (w : Word) : s.memWrite addr w = s := by
  rw [State.memWrite_csr ht, State.writeCsr_readOnly hr, State.unlessBusy_idle hidle]

theorem State.memWrite_readOnlyWindow {s : State} {addr : Addr} {b : Buffer} {i : Nat} (hidle : s.busy = false)
    (ht : target addr = .byte b i) (hb : b.hostWritable = false) (w : Word) : s.memWrite addr w = s := by
  rw [State.memWrite_byte ht, State.unlessBusy_idle hidle]
  simp [State.writeByte, hb]

/-- Settles O56: every register's word is its fields by `readCsr`, and a write to a read-only register or window reaches a
target whose write rule keeps the state. -/
theorem registerReadsAndWrites : Obligations.RegisterReadsAndWrites := by
  intro s w hidle
  have read : ∀ {addr : Addr} (r : Csr), target addr = .csr r → s.memRead addr = .data (s.readCsr r) :=
    fun _ ht => State.memRead_csr_idle ht hidle
  have hcw := State.memWrite_cwLen_idle hidle w
  simp only [BitVec.ofNat_toNat]
  refine ⟨read .id rfl, ?_, read .cause rfl, read .info rfl, read .cmd rfl, read .result rfl, read .rLen rfl,
    read .rsDeg rfl, read .cwLen rfl, read .matSize rfl, read .alignN rfl, fun k => read (.alignC k) (target_alignC k),
    hcw, ?_, fun addr ha => ?_⟩
  · rw [← State.statusWord_eq_ofNat]
    exact read .status rfl
  · rw [hcw, ← setWidth_twelve_setWidth]
    exact State.memRead_csr_idle (r := .cwLen) rfl hidle
  · by_cases hw : 0x1200 ≤ addr.toNat
    · obtain ⟨b, i, ht, hb⟩ := target_readOnlyWindow (addr := addr) (by omega)
      exact State.memWrite_readOnlyWindow hidle ht hb w
    · obtain ⟨r, ht, hr⟩ := target_readOnlyCsr (addr := addr) (by omega)
      exact State.memWrite_readOnlyCsr hidle ht hr w

/-! ### The write to STATUS -/

theorem State.ite_clearDone (s : State) (b : Bool) :
    (if b then { s with done := false } else s) = { s with done := s.done && !b } := by
  cases b <;> simp

theorem State.ite_clearFault (s : State) (b : Bool) :
    (if b then s.clearFault else s) =
      { s with err := s.err && !b, cause := if b then 0 else s.cause, info := if b then 0 else s.info } := by
  cases b <;> simp [State.clearFault]

theorem State.ite_clearOvr (s : State) (b : Bool) :
    (if b then { s with ovr := false } else s) = { s with ovr := s.ovr && !b } := by
  cases b <;> simp

/-- Settles O54: the write clears DONE, the fault and OVR one after the other, each where its own bit is 1. -/
theorem statusWriteClears : Obligations.StatusWriteClears := by
  intro s w
  rw [State.memWrite_csr (r := .status) rfl]
  unfold State.writeCsr State.writeStatus
  extract_lets s1 s2
  have h1 : s1 = _ := s.ite_clearDone (w.getLsbD 1)
  have h2 : s2 = _ := s1.ite_clearFault (w.getLsbD 2)
  exact (s2.ite_clearOvr (w.getLsbD 3)).trans (by rw [h2, h1])

end Sys2Proof.Machine
end

section
/-! PROOFS. The byte windows of the host port (20_memory R61, R63): what a read and a write of a window do to the byte at the accessed
address, and the statement about them. -/

namespace Sys2Proof.Machine

/-! ### A byte window by the accessed address -/

/-- An address that reaches a buffer byte is the byte's own key in memory. -/
theorem target_byte_toNat {addr : Addr} {b : Buffer} {i : Nat} (ht : target addr = .byte b i) :
    addr.toNat = b.base + i := by
  unfold target at ht
  split at ht
  · cases ht
  · split at ht
    · rename_i b' i' hbuf
      cases ht
      exact (bufferAt_some hbuf).1
    · cases ht

/-- The read-write windows, POLY_A, POLY_B, CW_IN and CW_OUT, by their addresses (20_memory R61, R63). -/
theorem target_writableWindow {addr : Addr}
    (ha : (0x1000 ≤ addr.toNat ∧ addr.toNat ≤ 0x11FF) ∨ (0x2000 ≤ addr.toNat ∧ addr.toNat ≤ 0x3FFF)) :
    ∃ b i, target addr = .byte b i ∧ b.hostWritable = true := by
  rcases ha with hpoly | hcw
  · by_cases hp : addr.toNat < 0x1100
    · exact ⟨.polyA, addr.toNat - 0x1000, target_base (show _ < 0x100 by omega) (show _ = 0x1000 + _ by omega), rfl⟩
    · exact ⟨.polyB, addr.toNat - 0x1100, target_base (show _ < 0x100 by omega) (show _ = 0x1100 + _ by omega), rfl⟩
  · by_cases hc : addr.toNat < 0x3000
    · exact ⟨.cwIn, addr.toNat - 0x2000, target_base (show _ < 0x1000 by omega) (show _ = 0x2000 + _ by omega), rfl⟩
    · exact ⟨.cwOut, addr.toNat - 0x3000, target_base (show _ < 0x1000 by omega) (show _ = 0x3000 + _ by omega), rfl⟩

/-- Every window, read-only or not, by its addresses (20_memory R61). -/
theorem target_window {addr : Addr}
    (ha : (0x1000 ≤ addr.toNat ∧ addr.toNat ≤ 0x13FF) ∨ (0x2000 ≤ addr.toNat ∧ addr.toNat ≤ 0x3FFF)) :
    ∃ b i, target addr = .byte b i := by
  by_cases hro : 0x1200 ≤ addr.toNat ∧ addr.toNat ≤ 0x13FF
  · obtain ⟨b, i, ht, -⟩ := target_readOnlyWindow hro
    exact ⟨b, i, ht⟩
  · obtain ⟨b, i, ht, -⟩ := target_writableWindow (addr := addr) (by omega)
    exact ⟨b, i, ht⟩

theorem State.memRead_byte_idle {s : State} {addr : Addr} {b : Buffer} {i : Nat} {x : Byte}
    (ht : target addr = .byte b i) (hidle : s.busy = false) (hx : s.mem.read addr.toNat = some x) :
    s.memRead addr = .data (x.setWidth 32) := by
  rw [target_byte_toNat ht] at hx
  simp [State.memRead, ht, hidle, hx]

theorem State.memWrite_writableWindow {s : State} {addr : Addr} {b : Buffer} {i : Nat} (hidle : s.busy = false)
    (ht : target addr = .byte b i) (hb : b.hostWritable = true) (w : Word) :
    s.memWrite addr w = { s with mem := s.mem.write addr.toNat (w.setWidth 8) } := by
  rw [State.memWrite_byte ht, State.unlessBusy_idle hidle, target_byte_toNat ht]
  simp [State.writeByte, hb]

/-! ### What a read depends on -/

theorem State.readCsr_withMem (s : State) (m : Memory) (r : Csr) : { s with mem := m }.readCsr r = s.readCsr r := by
  cases r <;> rfl

/-- Of the memory, a read of the host port depends on the byte at the accessed address only. -/
theorem State.memRead_withMem {s : State} {m : Memory} {addr : Addr} (hm : m.read addr.toNat = s.mem.read addr.toNat) :
    { s with mem := m }.memRead addr = s.memRead addr := by
  unfold State.memRead
  cases ht : target addr with
  | unmapped => rfl
  | csr r => simp only [State.readCsr_withMem]
  | byte b i =>
    rw [target_byte_toNat ht] at hm
    simp only [hm]

theorem setWidth_eight_setWidth (w : Word) : (w.setWidth 8).setWidth 32 = w &&& 0xFF := by
  apply BitVec.eq_of_toNat_eq
  have hmask : (w &&& 0xFF).toNat = w.toNat % 2 ^ 8 := Nat.and_two_pow_sub_one_eq_mod w.toNat 8
  rw [hmask, BitVec.toNat_setWidth, BitVec.toNat_setWidth]
  omega

/-- Settles O57: a write to a read-write window is one store at the accessed address, which a read of that address returns and a
read of any other does not see. -/
theorem windowWriteThenRead : Obligations.WindowWriteThenRead := by
  intro s a w hidle
  refine ⟨fun x ha hx => ?_, fun ha => ?_⟩
  · obtain ⟨b, i, ht⟩ := target_window ha
    exact State.memRead_byte_idle ht hidle hx
  · obtain ⟨b, i, ht, hb⟩ := target_writableWindow ha
    have hsame := s.mem.read_write_same a.toNat (w.setWidth 8)
    have hother : ∀ j, j ≠ a.toNat → (s.mem.write a.toNat (w.setWidth 8)).read j = s.mem.read j :=
      fun j hj => s.mem.read_write_other _ hj
    rw [State.memWrite_writableWindow hidle ht hb, ← setWidth_eight_setWidth]
    exact ⟨rfl, hsame, hother, State.memRead_byte_idle ht hidle hsame,
      fun a' ha' => State.memRead_withMem (hother _ (mt BitVec.eq_of_toNat_eq ha'))⟩

end Sys2Proof.Machine
end

section
/-! PROOFS. The two rejections of the decoder (30_encoding R94, R95): which words have them, what the engine step does with a
rejected word, and the two statements about them. -/

namespace Sys2Proof

/-! ### The opcode as a number -/

theorem opcodeOf_eq_div (w : Word) : opcodeOf w = w.toNat / 2 ^ 27 := by
  have hw := w.isLt
  rw [opcodeOf, field, BitVec.extractLsb'_toNat, Nat.shiftRight_eq_div_pow]
  omega

theorem opcodeOf_lt (w : Word) : opcodeOf w < 2 ^ 5 :=
  (w.extractLsb' 27 5).isLt

/-! ### The rows of the opcode map (R93) -/

theorem opcodeTable_opcode_range : ∀ row ∈ opcodeTable, 0x01 ≤ row.opcode ∧ row.opcode ≤ 0x16 := by
  decide

theorem opcodeTable_opcodes_nodup : (opcodeTable.map OpRow.opcode).Nodup := by
  decide

theorem opcodeTable_pattern : ∀ row ∈ opcodeTable, row.pattern = BitVec.ofNat 32 row.opcode <<< 27 := by
  decide

theorem rowOf_reserved {opcode : Nat} (hres : opcode = 0 ∨ 0x17 ≤ opcode) : rowOf opcode = none := by
  refine List.find?_eq_none.2 fun row hrow heq => ?_
  have hrange := opcodeTable_opcode_range row hrow
  have hop : row.opcode = opcode := by simpa using heq
  omega

theorem rowOf_opcode {row : OpRow} (hrow : row ∈ opcodeTable) : rowOf row.opcode = some row := by
  cases hfind : rowOf row.opcode with
  | none => exact absurd (List.find?_eq_none.1 hfind row hrow) (by simp)
  | some found =>
    have hop : found.opcode = row.opcode := by simpa using List.find?_some hfind
    rw [List.inj_on_of_nodup_map opcodeTable_opcodes_nodup (List.mem_of_find?_eq_some hfind) hrow hop]

/-- Below the opcode a row's match word is 0 (R93). -/
theorem opcodeTable_pattern_low {row : OpRow} (hrow : row ∈ opcodeTable) {k : Nat} (hk : k < 27) :
    row.pattern.getLsbD k = false := by
  rw [opcodeTable_pattern row hrow]
  simp [hk]

/-! ### The two rejections -/

theorem Illegal.sub_lt (why : Illegal) : why.sub < 2 ^ 8 := by
  cases why <;> decide

theorem decode_reserved {w : Word} (hres : opcodeOf w = 0 ∨ 0x17 ≤ opcodeOf w) :
    decode w = .illegal .reservedOpcode := by
  simp [decode, rowOf_reserved hres]

/-- A masked bit of the word differs from the match word's, so the comparison of R96 fails. -/
theorem decode_mustBeZero {w : Word} {row : OpRow} {k : Nat} (hrow : row ∈ opcodeTable) (hop : opcodeOf w = row.opcode)
    (hk : k < 27) (hmask : row.mask.getLsbD k = true) (hbit : w.getLsbD k = true) :
    decode w = .illegal .mustBeZero := by
  have hne : w &&& row.mask ≠ row.pattern := by
    intro heq
    have hlow := opcodeTable_pattern_low hrow hk
    rw [← heq, BitVec.getLsbD_and, hmask, hbit] at hlow
    cases hlow
  simp [decode, hop, rowOf_opcode hrow, hne]

end Sys2Proof

namespace Sys2Proof.Machine

/-! ### The engine step of a rejected word -/

/-- A sub-code and a detail that fit their fields do not overlap in INFO (60_exceptions R303). -/
theorem infoWord_eq_add {sub detail : Nat} (hsub : sub < 2 ^ 8) (hdetail : detail < 2 ^ 24) :
    infoWord sub detail = BitVec.ofNat 32 (sub * 2 ^ 24) + BitVec.ofNat 32 detail := by
  have hshift : BitVec.ofNat 32 sub <<< 24 = BitVec.ofNat 32 (sub <<< 24) := by
    apply BitVec.eq_of_toNat_eq
    simp [Nat.shiftLeft_eq]
  rw [infoWord, BitVec.setWidth_ofNat_of_le_of_lt (by decide) hsub, BitVec.setWidth_ofNat_of_le_of_lt (by decide) hdetail,
    hshift, ← BitVec.ofNat_or, ← Nat.shiftLeft_add_eq_or_of_lt hdetail, BitVec.ofNat_add, Nat.shiftLeft_eq]

/-- The engine step of a rejected word: ILLEGAL with the rejection's sub-code and the opcode as the detail (R96). -/
theorem step_of_decode_illegal {s : State} {why : Illegal} (hf : s.faults = []) (he : s.engineTurn = true)
    (hd : decode s.cmd = .illegal why) :
    step s = .next (s.faultedWith 1
      (BitVec.ofNat 32 (why.sub * 2 ^ 24) + BitVec.ofNat 32 (s.cmd.toNat / 2 ^ 27))) := by
  have hinfo := infoWord_eq_add why.sub_lt ((opcodeOf_lt s.cmd).trans (by decide))
  have hstep : step s = raise s .illegal why.sub (opcodeOf s.cmd) := by
    simp [step, hf, he, engineStep, hd]
  rw [hstep, raise_eq, hinfo, opcodeOf_eq_div]
  rfl

/-- Settles O4: no row of the opcode map has a reserved opcode, so the decoder rejects the word with sub-code 1. -/
theorem reservedOpcodeRaisesIllegal : Obligations.ReservedOpcodeRaisesIllegal := by
  intro s hf he hres
  rw [← opcodeOf_eq_div] at hres
  exact step_of_decode_illegal hf he (decode_reserved hres)

/-- Settles O5: the opcode finds the row itself, whose match word is 0 at bit `k`, so the decoder rejects the word with
sub-code 2. -/
theorem mustBeZeroBitRaisesIllegal : Obligations.MustBeZeroBitRaisesIllegal := by
  intro s row k hf he hrow hop hk hmask hbit
  rw [← opcodeOf_eq_div] at hop
  exact step_of_decode_illegal hf he (decode_mustBeZero hrow hop hk hmask hbit)

end Sys2Proof.Machine
end

section
/-! PROOFS. The three commands of 40_galois_field: the table loop of R120 runs through the values of `gfexp`, so what the commands
compute from the printed tables is what the loop says. -/

namespace Sys2Proof.Machine

/-! ### The table loop and the printed tables (R120) -/

/-- One turn of the loop on a byte is the multiplication by alpha; its reduction drops bit 8 with the carry. -/
theorem nextPower_toNat : ∀ x : Byte, nextPower x.toNat = (timesAlpha x).toNat := by decide +kernel

/-- The loop of R120 fills EXP as it is printed, and goes round it again after 255 turns. -/
theorem powerOf_eq_gfexp_toNat (i : Nat) : powerOf i = (gfexp i).toNat := by
  induction i with
  | zero => rfl
  | succ i ih => rw [powerOf, ih, nextPower_toNat, gfexp_succ]

theorem powerOf_mod (i : Nat) : powerOf (i % 255) = powerOf i := by
  rw [powerOf_eq_gfexp_toNat, powerOf_eq_gfexp_toNat, gfexp_mod]

theorem setWidth_gfexp (i : Nat) : (gfexp i).setWidth 32 = BitVec.ofNat 32 (powerOf i) := by
  rw [powerOf_eq_gfexp_toNat, BitVec.ofNat_toNat]

/-! ### Operand bytes and their logarithms (R122) -/

theorem toNat_ofNat_byte {a : Nat} (ha : a < 256) : (BitVec.ofNat 8 a).toNat = a :=
  (BitVec.toNat_ofNat a 8).trans (Nat.mod_eq_of_lt ha)

theorem ofNat_byte_ne_zero {a : Nat} (ha : a < 256) (hne : a ≠ 0) : BitVec.ofNat 8 a ≠ 0 := by
  intro h
  exact hne ((toNat_ofNat_byte ha).symm.trans (congrArg BitVec.toNat h))

theorem powerOf_gflog {a : Nat} (ha : a < 256) (hne : a ≠ 0) : powerOf (gflog (BitVec.ofNat 8 a)) = a := by
  rw [powerOf_eq_gfexp_toNat, gfexp_gflog _ (ofNat_byte_ne_zero ha hne), toNat_ofNat_byte ha]

/-- Below 255 the loop takes no value twice: the logarithm finds its turn. -/
theorem gflog_powerOf {j : Nat} (hj : j < 255) : gflog (BitVec.ofNat 8 (powerOf j)) = j := by
  rw [powerOf_eq_gfexp_toNat, BitVec.ofNat_toNat, BitVec.setWidth_eq, gflog_gfexp, Nat.mod_eq_of_lt hj]

/-! ### What the commands do (R125-R127) -/

theorem exec_gfExp (a : Nat) (s : State) :
    exec (.gfExp a) s = .next { s with result := (gfexp a).setWidth 32, done := true, busy := false } := rfl

theorem exec_gfLog_zero (s : State) : exec (.gfLog 0) s = raise s .domain 1 0 := rfl

theorem exec_gfLog_of_ne {a : Nat} (hne : BitVec.ofNat 8 a ≠ 0) (s : State) :
    exec (.gfLog a) s =
      .next { s with result := BitVec.ofNat 32 (gflog (BitVec.ofNat 8 a)), done := true, busy := false } := if_neg hne

theorem exec_gfMul (a b : Nat) (s : State) :
    exec (.gfMul a b) s =
      .next { s with result := (gfmul (BitVec.ofNat 8 a) (BitVec.ofNat 8 b)).setWidth 32, done := true, busy := false } := rfl

/-! ### The three statements -/

/-- Settles O12: the entry GF.EXP reads is the loop's value of the same turn. -/
theorem gfExpResult : Obligations.GfExpResult := by
  intro a s _
  rw [exec_gfExp, setWidth_gfexp, powerOf_mod]

/-- Settles O13: the exponent is LOG[a], the only one because LOG undoes the loop. -/
theorem gfLogResult : Obligations.GfLogResult := by
  intro a s ha
  constructor
  · rintro rfl
    rw [exec_gfLog_zero, raise_eq]
    rfl
  · intro hne
    refine ⟨gflog (BitVec.ofNat 8 a), gflog_lt _, powerOf_gflog ha hne, ?_, exec_gfLog_of_ne (ofNat_byte_ne_zero ha hne) s⟩
    rintro j hj rfl
    exact (gflog_powerOf hj).symm

/-- Settles O14: the exponents are LOG[a] and LOG[b], and the entry at their sum is the loop's value. -/
theorem gfMulResult : Obligations.GfMulResult := by
  intro a b s ha hb
  constructor
  · intro hzero
    have hprod : gfmul (BitVec.ofNat 8 a) (BitVec.ofNat 8 b) = 0 := by
      obtain rfl | rfl := hzero
      · exact zero_gfmul _
      · exact gfmul_zero _
    rw [exec_gfMul, hprod]
    rfl
  · intro hane hbne
    refine ⟨gflog (BitVec.ofNat 8 a), gflog (BitVec.ofNat 8 b), gflog_lt _, gflog_lt _, powerOf_gflog ha hane,
      powerOf_gflog hb hbne, ?_⟩
    rw [exec_gfMul, gfmul_of_ne (ofNat_byte_ne_zero ha hane) (ofNat_byte_ne_zero hb hbne), setWidth_gfexp, powerOf_mod]

end Sys2Proof.Machine
end

section
/-! PROOFS. POLY.MUL and POLY.GEN of 41_polynomial: the product built one coefficient at a time has the coefficients of R140, and
what a command that leaves its result in POLY_R shows of it. -/

namespace Sys2Proof.Machine

/-! ### The coefficients of a product (R140) -/

theorem gfmul_comm (a b : Byte) : gfmul a b = gfmul b a := by
  by_cases ha : a = 0
  · rw [ha, zero_gfmul, gfmul_zero]
  · by_cases hb : b = 0
    · rw [hb, zero_gfmul, gfmul_zero]
    · rw [gfmul_of_ne ha hb, gfmul_of_ne hb ha, Nat.add_comm]

theorem zeros_getD (n k : Nat) : (zeros n).getD k 0 = 0 :=
  List.getElem?_getD_replicate_default_eq ..

theorem scale_getD (c : Byte) (p : List Byte) (k : Nat) : (scale c p).getD k 0 = gfmul c (p.getD k 0) := by
  have h := List.getD_map (l := p) (d := 0) (n := k) fun x => gfmul x c
  rwa [zero_gfmul, gfmul_comm] at h

/-- The second list gives the length, so the first must not be the longer one. -/
theorem xorInto_getD (p r : List Byte) (k : Nat) (hl : p.length ≤ r.length) :
    (xorInto p r).getD k 0 = p.getD k 0 ^^^ r.getD k 0 := by
  induction p generalizing r k with
  | nil => simp [xorInto]
  | cons x p ih =>
    cases r with
    | nil => simp at hl
    | cons y r =>
      cases k with
      | zero => rfl
      | succ k => exact ih r k (Nat.le_of_succ_le_succ hl)

theorem foldl_xor_eq_zero {l : List Byte} (hl : ∀ x ∈ l, x = 0) : l.foldl (· ^^^ ·) 0 = 0 := by
  induction l with
  | nil => rfl
  | cons x l ih =>
    obtain ⟨rfl, htail⟩ := List.forall_mem_cons.1 hl
    exact ih htail

theorem productCoeff_nil (q : List Byte) (k : Nat) : productCoeff [] q k = 0 :=
  foldl_xor_eq_zero (List.forall_mem_map.2 fun i _ => zero_gfmul (q.getD (k - i) 0))

theorem productCoeff_cons_zero (x : Byte) (p q : List Byte) : productCoeff (x :: p) q 0 = gfmul x (q.getD 0 0) :=
  BitVec.zero_xor ..

/-- The term of `p[0]` apart, the others are the terms of the rest of `p` one place lower. -/
theorem productCoeff_cons_succ (x : Byte) (p q : List Byte) (k : Nat) :
    productCoeff (x :: p) q (k + 1) = gfmul x (q.getD (k + 1) 0) ^^^ productCoeff p q k := by
  unfold productCoeff
  rw [List.range_succ_eq_map, List.map_cons, List.map_map, List.foldl_cons, BitVec.xor_comm, List.foldl_assoc]
  simp [Function.comp_def]

/-- The model's product has the coefficients of R140, zeros above its length. -/
theorem polymul_getD (p q : List Byte) (k : Nat) (hq : 1 ≤ q.length) :
    (polymul p q).getD k 0 = productCoeff p q k := by
  induction p generalizing k with
  | nil => rw [polymul, zeros_getD, productCoeff_nil]
  | cons x p ih =>
    have hl : (scale x q).length ≤ (0 :: polymul p q).length := by
      rw [scale_length, List.length_cons, polymul_length p q hq]; omega
    rw [polymul, xorInto_getD _ _ _ hl, scale_getD]
    cases k with
    | zero => rw [productCoeff_cons_zero]; exact BitVec.xor_zero
    | succ k => rw [productCoeff_cons_succ, ← ih]; rfl

/-! ### What the commands do (R141, R147) -/

theorem State.bytes_of_holds {s : State} {b : Buffer} {bs : List Byte} (h : s.Holds b bs) :
    s.bytes b bs.length = some bs :=
  (s.bytes_eq_some b bs.length bs).2 ⟨rfl, h⟩

theorem State.withPolyR_rLen_toNat (s : State) {r : List Byte} (hr : r.length ≤ 256) :
    (s.withPolyR r).rLen.toNat = r.length := by
  rw [State.withPolyR_rLen, BitVec.toNat_ofNat]
  omega

/-- A fault as its whole next state, INFO as a sum (60_exceptions R303, R305). -/
theorem raise_eq_faultedWith (s : State) (k : Cause) {sub detail : Nat} (hsub : sub < 2 ^ 8) (hdetail : detail < 2 ^ 24) :
    raise s k sub detail =
      .next (s.faultedWith k.code (BitVec.ofNat 32 (sub * 2 ^ 24) + BitVec.ofNat 32 detail)) := by
  rw [raise_eq, infoWord_eq_add hsub hdetail]
  rfl

/-- With both polynomials in their buffers and every length in range, no check of POLY.MUL fails. -/
theorem exec_polyMul_of_holds {s : State} {p q : List Byte} (hp : s.Holds .polyA p) (hq : s.Holds .polyB q)
    (hp1 : 1 ≤ p.length) (hp256 : p.length ≤ 256) (hq1 : 1 ≤ q.length) (hq256 : q.length ≤ 256)
    (hpq : p.length + q.length - 1 ≤ 256) :
    exec (.polyMul p.length q.length) s = .next (s.withPolyR (polymul p q)).complete := by
  show execPolyMul p.length q.length s = _
  unfold execPolyMul Config.polyCap
  rw [if_neg (by omega), if_neg (by omega), if_neg (by omega), State.bytes_of_holds hp, State.bytes_of_holds hq]
  rfl

theorem exec_polyGen_of_le {n : Nat} (hn : n ≤ 255) (s : State) :
    exec (.polyGen n) s = .next (s.withPolyR (polygen n)).complete :=
  if_neg (Nat.not_lt.2 hn)

theorem exec_polyGen_of_lt {n : Nat} (hn : 255 < n) (s : State) : exec (.polyGen n) s = raise s .length 4 n :=
  if_pos hn

/-! ### The two statements -/

/-- Settles O17: POLY_R shows the model's product, whose coefficients are those of R140. -/
theorem polyMulResult : Obligations.PolyMulResult := by
  intro s p q hp hq hp1 hp256 hq1 hq256 hpq
  have hlen := polymul_length p q hq1
  refine ⟨_, exec_polyMul_of_holds hp hq hp1 hp256 hq1 hq256 hpq, rfl, rfl, rfl, ?_, fun k hk => ?_⟩
  · exact (s.withPolyR_rLen_toNat (hlen ▸ hpq)).trans hlen
  · rw [← polymul_getD p q k hq1]
    exact s.read_withPolyR _ k hk

/-- Settles O20: POLY_R shows the generator polynomial, and neither its bytes nor the RS registers are written otherwise. -/
theorem polyGenResult : Obligations.PolyGenResult := by
  intro n s hn
  refine ⟨fun hle => ?_, fun hlt => ?_⟩
  · have hlen := polygen_length n
    refine ⟨_, exec_polyGen_of_le hle s, rfl, rfl, rfl, ?_, hlen, polygen_headD n, s.read_withPolyR _, rfl, rfl,
      fun k _ => s.read_withPolyR_other _ _ (.inr (Nat.le_add_right 0x1300 k))⟩
    exact (s.withPolyR_rLen_toNat (by omega)).trans hlen
  · rw [exec_polyGen_of_lt hlt, raise_eq_faultedWith s .length (by decide) (by omega)]
    rfl

end Sys2Proof.Machine
end

section
/-! PROOFS. RS.INIT of 42_reed_solomon: the state `withRs` leaves it in shows the generator polynomial in GEN, and POLY_R, the
window just below, is not reached. -/

namespace Sys2Proof.Machine

theorem State.withRs_rsDeg_toNat (s : State) {n : Nat} (hn : n ≤ 255) (g : List Byte) :
    (s.withRs n g).rsDeg.toNat = n := by
  rw [State.withRs_rsDeg, BitVec.toNat_ofNat]
  exact Nat.mod_eq_of_lt (Nat.lt_succ_of_le hn)

theorem exec_rsInit_of_le {n : Nat} (hn : n ≤ 255) (s : State) :
    exec (.rsInit n) s = .next (s.withRs n (polygen n)).complete :=
  if_neg (Nat.not_lt.2 hn)

theorem exec_rsInit_of_lt {n : Nat} (hn : 255 < n) (s : State) : exec (.rsInit n) s = raise s .length 4 n :=
  if_pos hn

/-- Settles O23: GEN shows the generator polynomial of the new degree, whatever it held, and the window of POLY_R ends where GEN
begins. -/
theorem rsInitResult : Obligations.RsInitResult := by
  intro n s hn
  refine ⟨fun hle => ?_, fun hlt => ?_⟩
  · have polyR_below_gen (k : Nat) (hk : k < 256) : Buffer.polyR.base + k < 0x1300 :=
      Nat.add_lt_add_left hk 0x1200
    exact ⟨_, exec_rsInit_of_le hle s, rfl, rfl, rfl, s.withRs_rsDeg_toNat hle (polygen n), rfl, s.read_withRs n _, rfl,
      fun k hk => s.read_withRs_other n (polygen n) _ (.inl (polyR_below_gen k hk))⟩
  · rw [exec_rsInit_of_lt hlt, raise_eq_faultedWith s .length (by decide) (by omega)]
    rfl

end Sys2Proof.Machine
end

section
/-! PROOFS. MAT.INIT and the cell check of 43_bit_matrix: a new matrix is empty, and the three commands on one cell begin with the
same check, which faults before anything is read or written. -/

namespace Sys2Proof.Machine

/-! ### A new matrix (R183) -/

theorem State.withNewMatrix_matSize_toNat (s : State) {n : Nat} (hn : n ≤ 177) : (s.withNewMatrix n).matSize.toNat = n := by
  rw [State.withNewMatrix_matSize, BitVec.toNat_ofNat]
  omega

theorem State.withNewMatrix_cell (s : State) (n r c : Nat) : (s.withNewMatrix n).cell r c = ⟨false, false⟩ :=
  Grid.cell_nil r c

theorem exec_matInit_of_legal {n : Nat} (h1 : 1 ≤ n) (h177 : n ≤ 177) (s : State) :
    exec (.matInit n) s = .next (s.withNewMatrix n).complete :=
  if_neg (show ¬(n = 0 ∨ 177 < n) by omega)

theorem exec_matInit_of_illegal {n : Nat} (hn : n = 0 ∨ 177 < n) (s : State) :
    exec (.matInit n) s = raise s .range 1 n :=
  if_pos hn

/-- Settles O29: a side from 1 to 177 fits MAT_SIZE and the new matrix lists no cell; on another side the check faults. -/
theorem matInitResult : Obligations.MatInitResult := by
  intro n s hn
  refine ⟨fun h1 h177 => ?_, fun hbad => ?_⟩
  · exact ⟨_, exec_matInit_of_legal h1 h177 s, rfl, rfl, rfl, s.withNewMatrix_matSize_toNat h177,
      fun r c _ _ => s.withNewMatrix_cell n r c⟩
  · rw [exec_matInit_of_illegal hbad, raise_eq_faultedWith s .range (by decide) (by omega)]
    rfl

/-! ### The cell check (R180) -/

/-- The three commands on one cell are its check and then their own effect (R184-R186). -/
theorem exec_eq_withCell {r c : Nat} {v sr : Bool} {i : Instr}
    (hi : i = .matSet r c v sr ∨ i = .matXor r c v ∨ i = .matGet r c) (s : State) :
    ∃ k, exec i s = withCell s r c k := by
  obtain rfl | rfl | rfl := hi
  · exact ⟨_, rfl⟩
  · exact ⟨_, rfl⟩
  · exact ⟨_, rfl⟩

/-- Settles O33: whichever of the three the command is, its check is what faults, and the detail fits its 24 bits. -/
theorem cellCheckFaults : Obligations.CellCheckFaults := by
  intro r c v sr s i hr hc hi
  obtain ⟨k, hexec⟩ := exec_eq_withCell hi s
  rw [hexec]
  obtain ⟨hzero, hcheck⟩ | ⟨hside, -, hcheck⟩ | ⟨hrow, hcol, -⟩ := withCell_cases s r c k
  case inl =>
    refine ⟨fun _ => ?_, fun hside => absurd hzero hside⟩
    rw [hcheck, raise_eq_faultedWith s .range (by decide) (by decide)]
    rfl
  case inr.inl =>
    refine ⟨fun hzero => absurd hzero hside, fun _ _ => ?_⟩
    rw [hcheck, raise_eq_faultedWith s .range (by decide) (by omega)]
    rfl
  case inr.inr =>
    unfold State.side at hrow hcol
    exact ⟨fun hzero => by omega, fun _ hout => by omega⟩

end Sys2Proof.Machine
end

section
/-! PROOFS. How a command ends (60_exceptions R300, R301, R310): every engine step of a command raises a fault on the state as it
was, finishes on a state with the fault registers as they were, or reads a byte with no value; and the statement that a faulting
command writes nothing else. -/

namespace Sys2Proof.Machine

/-- The three ends of a command performed in state `s`. What a fault and an unwritten byte leave is made from `s` itself, so none
of the command's writes are in it; a completed command has written no fault register and recorded no model-only fault. -/
inductive CommandEnd (s : State) : Result → Prop where
  | raised (k : Cause) (sub detail : Nat) : CommandEnd s (raise s k sub detail)
  | finished {s' : State} (herr : s'.err = s.err) (hcause : s'.cause = s.cause) (hinfo : s'.info = s.info)
      (hfaults : s'.faults = s.faults) : CommandEnd s (finish s')
  | uninit : CommandEnd s (uninit s)

namespace CommandEnd

variable {s : State}

/-! ### Through the checks -/

theorem check {p : Prop} [Decidable p] {k : Cause} {sub detail : Nat} {r : Result} (hr : CommandEnd s r) :
    CommandEnd s (if p then raise s k sub detail else r) := by
  split
  · exact .raised k sub detail
  · exact hr

theorem withCell {r c : Nat} {k : Result} (hk : CommandEnd s k) : CommandEnd s (withCell s r c k) :=
  .check (.check hk)

theorem withMatrix {k : Nat → Result} (hk : ∀ side, CommandEnd s (k side)) : CommandEnd s (withMatrix s k) :=
  .check (hk s.side)

theorem withVersion {k : Nat → Result} (hk : ∀ v, CommandEnd s (k v)) : CommandEnd s (withVersion s k) :=
  .withMatrix fun _ => .check (hk _)

/-! ### The structure placers and the commands that read buffer bytes -/

theorem placeStructure (cells : Nat → List Placement) : CommandEnd s (placeStructure s cells) :=
  .withVersion fun _ => .finished rfl rfl rfl rfl

theorem polyMul (p q : Nat) : CommandEnd s (execPolyMul p q s) := by
  refine .check (.check (.check ?_))
  split
  · exact .finished rfl rfl rfl rfl
  · exact .uninit

theorem polyMod (p q : Nat) : CommandEnd s (execPolyMod p q s) := by
  refine .check (.check ?_)
  split
  · exact .uninit
  · refine .check ?_
    split
    · exact .finished rfl rfl rfl rfl
    · exact .uninit

theorem rsEnc (n : Nat) : CommandEnd s (execRsEnc n s) := by
  refine .check (.check ?_)
  split
  · exact .finished rfl rfl rfl rfl
  · exact .uninit

theorem ilvBuild (B e T : Nat) : CommandEnd s (execIlvBuild B e T s) := by
  refine .check (.check ?_)
  split
  · exact .uninit
  · exact .finished rfl rfl rfl rfl

theorem dpZigzag : CommandEnd s (execDpZigzag s) := by
  refine .withMatrix fun side => .check ?_
  split
  · exact .uninit
  · exact .finished rfl rfl rfl rfl

end CommandEnd

/-! ### Every command -/

theorem exec_commandEnd (i : Instr) (s : State) : CommandEnd s (exec i s) := by
  cases i with
  | gfExp | gfMul => exact .finished rfl rfl rfl rfl
  | gfLog | polyGen | rsInit | matInit | spAcoord | spPlace => exact .check (.finished rfl rfl rfl rfl)
  | matSet | matXor | matGet => exact .withCell (.finished rfl rfl rfl rfl)
  | spFinder => exact .placeStructure fun _ => finderCells s.side
  | spTiming => exact .placeStructure fun _ => timingCells s.side
  | spAlign => exact .placeStructure alignAll
  | spFormat => exact .placeStructure fun _ => formatCells s.side
  | spVersion => exact .placeStructure fun v => versionCells v s.side
  | spDark => exact .placeStructure fun _ => darkCells s.side
  | polyMul p q => exact .polyMul p q
  | polyMod p q => exact .polyMod p q
  | rsEnc n => exact .rsEnc n
  | ilvBuild B e T => exact .ilvBuild B e T
  | dpZigzag => exact .dpZigzag

/-- What the next state of a command can be, by the command's end. -/
theorem exec_next_cases {i : Instr} {s t : State} (h : exec i s = .next t) :
    (∃ k sub detail, t = (s.faultEntry k sub detail).endCommand) ∨
    (∃ s' : State, t = s'.complete ∧ s'.err = s.err ∧ s'.cause = s.cause ∧ s'.info = s.info ∧ s'.faults = s.faults) ∨
    t = s.record .uninitRead := by
  have hend := exec_commandEnd i s
  generalize exec i s = r at h hend
  cases hend with
  | raised k sub detail => exact .inl ⟨k, sub, detail, raise_next h⟩
  | finished herr hcause hinfo hfaults => exact .inr (.inl ⟨_, finish_next h, herr, hcause, hinfo, hfaults⟩)
  | uninit => exact .inr (.inr (uninit_next h))

/-- Settles O48: from ERR = 0 only a raised fault sets ERR, and its next state is made from the state before the command. -/
theorem faultedCommandWritesNothing : Obligations.FaultedCommandWritesNothing := by
  intro i s t hexec hbefore hafter
  obtain ⟨k, sub, detail, rfl⟩ | ⟨s', rfl, herr, -⟩ | rfl := exec_next_cases hexec
  case inl => rfl
  case inr.inl =>
    have hkept : s'.complete.err = false := herr.trans hbefore
    exact absurd hafter (Bool.eq_false_iff.1 hkept)
  case inr.inr =>
    have hkept : (s.record .uninitRead).err = false := hbefore
    exact absurd hafter (Bool.eq_false_iff.1 hkept)

end Sys2Proof.Machine
end

section
/-! PROOFS. The reset state of 70_reset_and_hazards R340: its registers are the fields `State.reset` writes down, and its empty
buffers show each byte by the buffer's kind. -/

namespace Sys2Proof.Machine

/-- A byte nothing has written reads 0 in the buffers the host may not write, POLY_R and GEN, and has no value in the others
(10_state R40, R41). -/
theorem Memory.unlisted_base {b : Buffer} {i : Nat} (hi : i < b.size) :
    Memory.unlisted (b.base + i) = if b.hostWritable then none else some 0 := by
  rw [Memory.unlisted_eq]
  cases b <;> simp only [Buffer.base, Buffer.size, Config.polyCap, Config.cwCap] at hi ⊢
  case polyR | gen => exact if_pos (by omega)
  case polyA | polyB | cwIn | cwOut => exact if_neg (by omega)

/-- Every buffer byte after reset is one that nothing has written. -/
theorem State.reset_read_base {b : Buffer} {i : Nat} (hi : i < b.size) :
    State.reset.mem.read (b.base + i) = if b.hostWritable then none else some 0 :=
  (Memory.read_nil _).trans (Memory.unlisted_base hi)

theorem State.reset_alignC (k : Fin 7) : State.reset.alignC[k] = 0 :=
  Vector.getElem_replicate k.isLt

/-- Settles O7: the registers by the definition of the reset state, the buffers by their bytes after reset. -/
theorem resetState : Obligations.ResetState := by
  refine ⟨rfl, rfl, rfl, rfl, rfl, rfl, rfl, rfl, rfl, rfl, rfl, rfl, rfl, rfl, rfl, rfl, State.reset_alignC, ?cleared,
    ?polynomials, ?codewords, rfl⟩
  case cleared =>
    exact fun i hi => ⟨State.reset_read_base (b := .polyR) hi, State.reset_read_base (b := .gen) hi⟩
  case polynomials =>
    exact fun i hi => ⟨State.reset_read_base (b := .polyA) hi, State.reset_read_base (b := .polyB) hi⟩
  case codewords =>
    exact fun i hi => ⟨State.reset_read_base (b := .cwIn) hi, State.reset_read_base (b := .cwOut) hi⟩

end Sys2Proof.Machine
end

section
/-! PROOFS. The encoder and the decoder undo each other (30_encoding R90-R96): what a field of a word reads after operands were put
into it, which bits of a word its fields put back, and the three statements about the two functions. -/

namespace Sys2Proof

/-! ### A field of an assembled word (R91, R92) -/

theorem field_lt (w : Word) (lo len : Nat) : field w lo len < 2 ^ len :=
  (w.extractLsb' lo len).isLt

@[simp] theorem field_or (v w : Word) (lo len : Nat) : field (v ||| w) lo len = field v lo len ||| field w lo len := by
  rw [field, BitVec.extractLsb'_or, BitVec.toNat_or]; rfl

@[simp] theorem field_ofNat (n lo len : Nat) : field (BitVec.ofNat 32 n) lo len = n % 2 ^ 32 / 2 ^ lo % 2 ^ len := by
  rw [field, BitVec.extractLsb'_toNat, BitVec.toNat_ofNat, Nat.shiftRight_eq_div_pow]

/-- A field whose bits are all 0 reads 0. -/
theorem field_eq_zero {w : Word} {lo len : Nat} (h : ∀ k, k < len → w.getLsbD (lo + k) = false) : field w lo len = 0 := by
  have hz : w.extractLsb' lo len = 0#len := BitVec.eq_of_getLsbD_eq fun k hk => by simp [hk, h k hk]
  rw [field, hz]; rfl

theorem putField_getLsbD {lo len : Nat} (hle : lo + len ≤ 32) (n k : Nat) :
    (putField lo len n).getLsbD k = (decide (lo ≤ k ∧ k < lo + len) && n.testBit (k - lo)) := by
  unfold putField
  rw [BitVec.getLsbD_shiftLeft, BitVec.getLsbD_setWidth, BitVec.getLsbD_ofNat]
  by_cases hlo : lo ≤ k
  · by_cases hk : k < lo + len
    · simp [hlo, hk, show k < 32 by omega, show k - lo < len by omega, show k - lo < 32 by omega]
    · simp [hk, show ¬ k - lo < len by omega]
  · simp [hlo, Nat.lt_of_not_le hlo]

/-- A field holds what was put into it. -/
@[simp] theorem field_putField_same {lo len n : Nat} (hle : lo + len ≤ 32) (hn : n < 2 ^ len) :
    field (putField lo len n) lo len = n := by
  have h : (putField lo len n).extractLsb' lo len = BitVec.ofNat len n := by
    refine BitVec.eq_of_getLsbD_eq fun k hk => ?_
    rw [BitVec.getLsbD_extractLsb', putField_getLsbD hle, BitVec.getLsbD_ofNat]
    simp [hk]
  rw [field, h, BitVec.toNat_ofNat, Nat.mod_eq_of_lt hn]

/-- What is put elsewhere leaves a field 0. -/
@[simp] theorem field_putField_other {lo len lo' len' : Nat} (n : Nat) (hle : lo + len ≤ 32)
    (hdis : lo' + len' ≤ lo ∨ lo + len ≤ lo') : field (putField lo len n) lo' len' = 0 :=
  field_eq_zero fun k hk => by
    rw [putField_getLsbD hle, decide_eq_false (by omega), Bool.false_and]

theorem putBit_eq_putField (lo : Nat) (b : Bool) : putBit lo b = putField lo 1 b.toNat := by
  cases b <;> rfl

theorem getLsbD_toNat_eq_field (w : Word) (lo : Nat) : (w.getLsbD lo).toNat = field w lo 1 := by
  unfold field
  rw [BitVec.extractLsb'_toNat, Nat.shiftRight_eq_div_pow, BitVec.getLsbD, Nat.testBit_eq_decide_div_mod_eq, pow_one]
  rcases Nat.mod_two_eq_zero_or_one (w.toNat / 2 ^ lo) with h | h <;> rw [h] <;> rfl

/-- A value bit put at a position is read there as a field of one bit. -/
theorem getLsbD_eq_of_field {w : Word} {lo : Nat} {b : Bool} (h : field w lo 1 = b.toNat) : w.getLsbD lo = b := by
  rw [← getLsbD_toNat_eq_field] at h
  revert h
  cases w.getLsbD lo <;> cases b <;> decide

/-! ### Decode of encode (R93, R96) -/

/-- The row found by the command's opcode matches the word, so the operands it assembles decide whether the command comes back. -/
theorem decode_encode_of_operands {i : Instr} {row : OpRow} (hmeets : Laws.EncodeMeetsRow.Statement i)
    (hrow : rowOf i.opcode = some row) (hops : row.operands (encode i) = i) : decode (encode i) = .cmd i := by
  obtain ⟨row', hrow', hmask, hop⟩ := hmeets
  obtain rfl : row = row' := Option.some.inj (hrow.symm.trans hrow')
  unfold decode
  rw [hop, hrow]
  simp only [hmask, if_true, hops]

theorem encode_meets_row (i : Instr) : Laws.EncodeMeetsRow.Statement i := by
  cases i with
  | gfExp a => exact Laws.EncodeMeetsRow.gfExp a
  | gfLog a => exact Laws.EncodeMeetsRow.gfLog a
  | gfMul a b => exact Laws.EncodeMeetsRow.gfMul a b
  | polyMul p q => exact Laws.EncodeMeetsRow.polyMul p q
  | polyMod p q => exact Laws.EncodeMeetsRow.polyMod p q
  | polyGen n => exact Laws.EncodeMeetsRow.polyGen n
  | rsInit n => exact Laws.EncodeMeetsRow.rsInit n
  | rsEnc n => exact Laws.EncodeMeetsRow.rsEnc n
  | ilvBuild B e T => exact Laws.EncodeMeetsRow.ilvBuild B e T
  | matInit n => exact Laws.EncodeMeetsRow.matInit n
  | matSet r c v sr => exact Laws.EncodeMeetsRow.matSet r c v sr
  | matXor r c v => exact Laws.EncodeMeetsRow.matXor r c v
  | matGet r c => exact Laws.EncodeMeetsRow.matGet r c
  | spAcoord n => exact Laws.EncodeMeetsRow.spAcoord n
  | spFinder => exact Laws.EncodeMeetsRow.spFinder
  | spTiming => exact Laws.EncodeMeetsRow.spTiming
  | spAlign => exact Laws.EncodeMeetsRow.spAlign
  | spFormat => exact Laws.EncodeMeetsRow.spFormat
  | spVersion => exact Laws.EncodeMeetsRow.spVersion
  | spDark => exact Laws.EncodeMeetsRow.spDark
  | spPlace n => exact Laws.EncodeMeetsRow.spPlace n
  | dpZigzag => exact Laws.EncodeMeetsRow.dpZigzag

/-- Each operand field of the command's word holds its operand; a value bit is a field of one bit. -/
theorem operands_encode {i : Instr} (hwf : i.wellFormed = true) :
    ∃ row, rowOf i.opcode = some row ∧ row.operands (encode i) = i := by
  have hbit : ∀ b : Bool, b.toNat < 2 := Bool.toNat_lt
  cases i <;> refine ⟨_, rfl, ?_⟩ <;> simp [Instr.wellFormed] at hwf
  case spFinder | spTiming | spAlign | spFormat | spVersion | spDark | dpZigzag => rfl
  case matSet r c v sr =>
    have hv : (encode (.matSet r c v sr)).getLsbD 1 = v := getLsbD_eq_of_field <| by
      simp [encode, putBit_eq_putField, hbit]
    have hsr : (encode (.matSet r c v sr)).getLsbD 0 = sr := getLsbD_eq_of_field <| by
      simp [encode, putBit_eq_putField, hbit]
    simp only [hv, hsr]
    simp [encode, putBit_eq_putField, hwf]
  case matXor r c v =>
    have hv : (encode (.matXor r c v)).getLsbD 1 = v := getLsbD_eq_of_field <| by
      simp [encode, putBit_eq_putField, hbit]
    simp only [hv]
    simp [encode, putBit_eq_putField, hwf]
  all_goals simp [encode, hwf]

/-- Settles O2: the command's own row assembles its operands again. -/
theorem decodeOfEncode : Obligations.DecodeOfEncode := by
  intro i hwf
  obtain ⟨row, hrow, hops⟩ := operands_encode hwf
  exact decode_encode_of_operands (encode_meets_row i) hrow hops

/-- Settles O1: each of the words is the encoding of its command. -/
theorem decodeExampleWords : Obligations.DecodeExampleWords := by
  have word : ∀ {i : Instr} {w : Word}, i.wellFormed = true → encode i = w → decode w = .cmd i :=
    fun hwf hw => hw ▸ decodeOfEncode _ hwf
  exact ⟨word rfl rfl, word rfl rfl, word rfl rfl, word rfl rfl, word rfl rfl, word rfl rfl, word rfl rfl,
    word rfl rfl, word rfl rfl, word rfl rfl, word rfl rfl, word rfl rfl, word rfl rfl, word rfl rfl,
    word rfl rfl, word rfl rfl, word rfl rfl, word rfl rfl, word rfl rfl, word rfl rfl, word rfl rfl,
    word rfl rfl⟩

/-! ### Encode of decode (R94-R96) -/

/-- A word that decodes matches a row of the opcode map, which assembles its operands (R96). -/
theorem decode_eq_cmd {w : Word} {i : Instr} (h : decode w = .cmd i) :
    ∃ row ∈ opcodeTable, w &&& row.mask = row.pattern ∧ i = row.operands w := by
  unfold decode at h
  split at h
  · cases h
  · rename_i row hrow
    split at h
    · rename_i hmask
      cases h
      exact ⟨row, List.mem_of_find?_eq_some hrow, hmask, rfl⟩
    · cases h

/-- The bits of a field put back where they were read. -/
theorem putField_field (w : Word) {lo len : Nat} (hle : lo + len ≤ 32) :
    putField lo len (field w lo len) = w &&& putField lo len (2 ^ len - 1) := by
  refine BitVec.eq_of_getLsbD_eq fun k hk => ?_
  rw [BitVec.getLsbD_and, putField_getLsbD hle, putField_getLsbD hle, Nat.testBit_two_pow_sub_one, field,
    BitVec.testBit_toNat, BitVec.getLsbD_extractLsb']
  by_cases h : lo ≤ k ∧ k < lo + len
  · simp [h.1, h.2, show k - lo < len by omega]
  · simp [h]

theorem putBit_getLsbD (w : Word) {lo : Nat} (hlo : lo + 1 ≤ 32) :
    putBit lo (w.getLsbD lo) = w &&& putField lo 1 (2 ^ 1 - 1) := by
  rw [putBit_eq_putField, getLsbD_toNat_eq_field, putField_field w hlo]

/-- Every row's mask and its fields cover the whole word, so the command's word is the word that was decoded. -/
theorem encode_operands {w : Word} {row : OpRow} (hrow : row ∈ opcodeTable) (hmask : w &&& row.mask = row.pattern) :
    (row.operands w).wellFormed = true ∧ encode (row.operands w) = w := by
  have cover : ∀ {m : Word}, m = BitVec.allOnes 32 → w &&& m = w := fun h => h ▸ BitVec.and_allOnes
  simp only [opcodeTable, arithmeticRows, matrixRows, List.cons_append, List.nil_append, List.mem_cons, List.not_mem_nil,
    or_false] at hrow
  rcases hrow with rfl | rfl | rfl | rfl | rfl | rfl | rfl | rfl | rfl | rfl | rfl | rfl | rfl | rfl | rfl | rfl | rfl | rfl |
    rfl | rfl | rfl | rfl
  all_goals
    constructor
    · simp only [Instr.wellFormed, field_lt, decide_true, Bool.and_self]
    · dsimp only at hmask ⊢
      simp (disch := decide) only [encode, putField_field, putBit_getLsbD, ← hmask, ← BitVec.and_or_distrib_left]
      exact cover (by decide)

/-- Settles O3: a word decodes by a row it matches, which covers all its bits. -/
theorem encodeOfDecode : Obligations.EncodeOfDecode := by
  intro w i h
  obtain ⟨row, hrow, hmask, rfl⟩ := decode_eq_cmd h
  exact encode_operands hrow hmask

end Sys2Proof
end

section
/-! PROOFS. What every command writes, said once (40_galois_field to 46_interleaver): a command that completes leaves the one state
its rule gives, in a state that passed its checks; every other end is a fault or an unwritten byte. The frames of the commands and the
rules over all commands follow by cases on it. -/

namespace Sys2Proof.Machine

/-! ### The six structural placers -/

/-- The cells a structural placer places in a symbol of a version (44_structural_placer R201-R215). -/
def placerCells : Instr → Option (Nat → List Placement)
  | .spFinder => some fun v => finderCells (symbolSize v)
  | .spTiming => some fun v => timingCells (symbolSize v)
  | .spAlign => some alignAll
  | .spFormat => some fun v => formatCells (symbolSize v)
  | .spVersion => some fun v => versionCells v (symbolSize v)
  | .spDark => some fun v => darkCells (symbolSize v)
  | _ => none

theorem placeStructure_congr {s : State} {f g : Nat → List Placement} (h : ∀ v, s.side = symbolSize v → f v = g v) :
    placeStructure s f = placeStructure s g := by
  unfold placeStructure
  obtain ⟨h0, -⟩ | ⟨h0, hbad, -⟩ | ⟨v, hv, hs, -⟩ :=
    withVersion_cases s fun v => finish (s.withGrid (s.grid.placeAll (f v)))
  · simp only [withVersion, withMatrix, h0, if_true]
  · simp only [withVersion, withMatrix, h0, hbad, if_true, if_false]
  · rw [withVersion_eq s _ v hv hs, withVersion_eq s _ v hv hs, h v hs]

/-- A placer is the geometry check and then its placements (R200). -/
theorem exec_placer {i : Instr} {cells : Nat → List Placement} (hi : placerCells i = some cells) (s : State) :
    exec i s = placeStructure s cells := by
  cases i <;> cases hi
  case spFinder => exact placeStructure_congr (f := fun _ => finderCells s.side) fun v hs => congrArg finderCells hs
  case spTiming => exact placeStructure_congr (f := fun _ => timingCells s.side) fun v hs => congrArg timingCells hs
  case spAlign => rfl
  case spFormat => exact placeStructure_congr (f := fun _ => formatCells s.side) fun v hs => congrArg formatCells hs
  case spVersion => exact placeStructure_congr (f := fun v => versionCells v s.side) fun v hs => congrArg (versionCells v) hs
  case spDark => exact placeStructure_congr (f := fun _ => darkCells s.side) fun v hs => congrArg darkCells hs

/-- The six commands are the placers. -/
theorem placerCells_isSome {i : Instr}
    (hi : i = .spFinder ∨ i = .spTiming ∨ i = .spAlign ∨ i = .spFormat ∨ i = .spVersion ∨ i = .spDark) :
    ∃ cells, placerCells i = some cells := by
  rcases hi with rfl | rfl | rfl | rfl | rfl | rfl <;> exact ⟨_, rfl⟩

/-! ### What a completed command has written -/

/-- `Writes s i s'`: command `i` passes its checks in state `s`, and `s'` is `s` with all its writes committed, its flags not yet set. -/
inductive Writes (s : State) : Instr → State → Prop
  | gfExp (a : Nat) : Writes s (.gfExp a) (s.withResult ((gfexp a).setWidth 32))
  | gfLog (a : Nat) : Writes s (.gfLog a) (s.withResult (BitVec.ofNat 32 (gflog (BitVec.ofNat 8 a))))
  | gfMul (a b : Nat) : Writes s (.gfMul a b) (s.withResult ((gfmul (BitVec.ofNat 8 a) (BitVec.ofNat 8 b)).setWidth 32))
  | polyMul {p q : Nat} {a b : List Byte} (hq : 1 ≤ q) (hpq : p + q - 1 ≤ 256)
      (ha : s.bytes .polyA p = some a) (hb : s.bytes .polyB q = some b) : Writes s (.polyMul p q) (s.withPolyR (polymul a b))
  | polyMod {p q : Nat} {a d : List Byte} (hq : 1 ≤ q) (hq256 : q ≤ 256) (hlead : s.firstByte .polyB = some 1)
      (ha : s.bytes .polyA p = some a) (hd : s.bytes .polyB q = some d) : Writes s (.polyMod p q) (s.withPolyR (polymod a d))
  | polyGen {n : Nat} (hn : n ≤ 255) : Writes s (.polyGen n) (s.withPolyR (polygen n))
  | rsInit {n : Nat} (hn : n ≤ 255) : Writes s (.rsInit n) (s.withRs n (polygen n))
  | rsEnc {n : Nat} {data g : List Byte} (hv : s.rsValid = true) (hn : n ≤ 256)
      (hdata : s.bytes .polyA n = some data) (hg : s.bytes .gen (s.rsDeg.toNat + 1) = some g) :
      Writes s (.rsEnc n) (s.withPolyR (rsenc data g))
  | ilvBuild {B e T : Nat} {data : List Byte} (hB : 1 ≤ B) (hT : B * e ≤ T)
      (hdata : s.bytes .cwIn (layout B e T).D = some data) :
      Writes s (.ilvBuild B e T) ((s.withStream (buildStream B e T data)).withRs e (polygen e))
  | matInit {n : Nat} (h1 : 1 ≤ n) (h177 : n ≤ 177) : Writes s (.matInit n) (s.withNewMatrix n)
  | matSet {r c : Nat} (v sr : Bool) (hr : r < s.side) (hc : c < s.side) :
      Writes s (.matSet r c v sr) (s.withGrid (if sr then s.grid.place r c v else s.grid.setModule r c v))
  | matXor {r c : Nat} (v : Bool) (hr : r < s.side) (hc : c < s.side) :
      Writes s (.matXor r c v) (s.withGrid (s.grid.setModule r c ((s.cell r c).dark ^^ v)))
  | matGet {r c : Nat} (hr : r < s.side) (hc : c < s.side) : Writes s (.matGet r c) (s.withResult (s.cell r c).value)
  | spAcoord {n : Nat} (h1 : 1 ≤ n) (h40 : n ≤ 40) : Writes s (.spAcoord n) (s.withAlign (acoords n))
  | placer {i : Instr} {cells : Nat → List Placement} {v : Nat} (hi : placerCells i = some cells) (hv : 1 ≤ v)
      (hs : s.side = symbolSize v) : Writes s i (s.withGrid (s.grid.placeAll (cells v)))
  | spPlace {n : Nat} (h1 : 1 ≤ n) (h40 : n ≤ 40) :
      Writes s (.spPlace n) ((s.withNewMatrix (symbolSize n)).withGrid (Grid.placeAll [] (structureCells n)))
  | dpZigzag {cw : List Byte} (hside : s.side ≠ 0) (hcw : s.bytes .cwOut s.cwLen.toNat = some cw) :
      Writes s .dpZigzag (s.withGrid (placeBits s.grid cw 0 (zigzag s.grid s.side)))

/-- The commands that read buffer bytes, which may have no value (10_state R41). -/
def readsBytes : Instr → Bool
  | .polyMul _ _ | .polyMod _ _ | .rsEnc _ | .ilvBuild _ _ _ | .dpZigzag => true
  | _ => false

/-- The three ends of a command with what it has written (60_exceptions R300, R305, R310). -/
inductive Ends (i : Instr) (s : State) : Result → Prop
  | raised (k : Cause) (sub detail : Nat) : Ends i s (raise s k sub detail)
  | wrote {s' : State} (h : Writes s i s') : Ends i s (finish s')
  | uninit (h : readsBytes i = true) : Ends i s (uninit s)

namespace Ends

variable {i : Instr} {s : State}

theorem check {p : Prop} [Decidable p] {k : Cause} {sub detail : Nat} {r : Result} (hr : ¬p → Ends i s r) :
    Ends i s (if p then raise s k sub detail else r) := by
  split
  · exact .raised k sub detail
  · exact hr ‹_›

theorem withCell {r c : Nat} {k : Result} (hk : r < s.side → c < s.side → Ends i s k) : Ends i s (withCell s r c k) :=
  .check fun _ => .check fun h => hk (by omega) (by omega)

theorem polyMul (p q : Nat) : Ends (.polyMul p q) s (execPolyMul p q s) := by
  refine .check fun _ => .check fun hq => .check fun hpq => ?_
  unfold Config.polyCap at hpq
  split
  · exact .wrote (.polyMul (by omega) (by omega) ‹_› ‹_›)
  · exact .uninit rfl

theorem polyMod (p q : Nat) : Ends (.polyMod p q) s (execPolyMod p q s) := by
  refine .check fun _ => .check fun hq => ?_
  unfold Config.polyCap at hq
  split
  · exact .uninit rfl
  · rename_i lead hlead
    refine .check fun hne => ?_
    obtain rfl : lead = 1 := not_not.1 hne
    split
    · exact .wrote (.polyMod (by omega) (by omega) hlead ‹_› ‹_›)
    · exact .uninit rfl

theorem rsEnc (n : Nat) : Ends (.rsEnc n) s (execRsEnc n s) := by
  refine .check fun hv => .check fun hn => ?_
  split
  · exact .wrote (.rsEnc (by simpa using hv) (not_lt.1 hn) ‹_› ‹_›)
  · exact .uninit rfl

theorem ilvBuild (B e T : Nat) : Ends (.ilvBuild B e T) s (execIlvBuild B e T s) := by
  refine .check fun hB => .check fun hT => ?_
  split
  · exact .uninit rfl
  · exact .wrote (.ilvBuild (by omega) (by omega) ‹_›)

theorem dpZigzag : Ends .dpZigzag s (execDpZigzag s) := by
  refine .check fun hside => .check fun _ => ?_
  split
  · exact .uninit rfl
  · exact .wrote (.dpZigzag hside ‹_›)

theorem placer {cells : Nat → List Placement} (hi : placerCells i = some cells) : Ends i s (exec i s) := by
  rw [exec_placer hi, placeStructure]
  obtain ⟨-, h⟩ | ⟨-, -, h⟩ | ⟨v, hv, hs, h⟩ :=
    withVersion_cases s fun v => finish (s.withGrid (s.grid.placeAll (cells v))) <;> rw [h]
  · exact .raised ..
  · exact .raised ..
  · exact .wrote (.placer hi hv hs)

end Ends

/-- Every command ends in one of the three ways. -/
theorem exec_ends (i : Instr) (s : State) : Ends i s (exec i s) := by
  cases i with
  | gfExp a => exact .wrote (.gfExp a)
  | gfLog a => exact .check fun _ => .wrote (.gfLog a)
  | gfMul a b => exact .wrote (.gfMul a b)
  | polyMul p q => exact .polyMul p q
  | polyMod p q => exact .polyMod p q
  | polyGen n => exact .check fun h => .wrote (.polyGen (not_lt.1 h))
  | rsInit n => exact .check fun h => .wrote (.rsInit (not_lt.1 h))
  | rsEnc n => exact .rsEnc n
  | ilvBuild B e T => exact .ilvBuild B e T
  | matInit n => exact .check fun h => .wrote (.matInit (by omega) (by unfold Config.matMax at h; omega))
  | matSet r c v sr => exact .withCell fun hr hc => .wrote (.matSet v sr hr hc)
  | matXor r c v => exact .withCell fun hr hc => .wrote (.matXor v hr hc)
  | matGet r c => exact .withCell fun hr hc => .wrote (.matGet hr hc)
  | spAcoord n => exact .check fun h => .wrote (.spAcoord (by omega) (by unfold Config.vMax at h; omega))
  | spPlace n => exact .check fun h => .wrote (.spPlace (by omega) (by unfold Config.vMax at h; omega))
  | spFinder | spTiming | spAlign | spFormat | spVersion | spDark => exact .placer rfl
  | dpZigzag => exact .dpZigzag

/-- The next state of a command, by its end. -/
theorem exec_next_ends {i : Instr} {s t : State} (h : exec i s = .next t) :
    (∃ k sub detail, t = (s.faultEntry k sub detail).endCommand) ∨
    (∃ s', Writes s i s' ∧ t = s'.complete) ∨
    (readsBytes i = true ∧ t = s.record .uninitRead) := by
  have hend := exec_ends i s
  generalize exec i s = r at h hend
  cases hend with
  | raised k sub detail => exact .inl ⟨k, sub, detail, raise_next h⟩
  | wrote hw => exact .inr (.inl ⟨_, hw, finish_next h⟩)
  | uninit hr => exact .inr (.inr ⟨hr, uninit_next h⟩)

/-- Settles O49: a fault is made from the state before the command, a completion keeps the fault registers, an unwritten byte is
only recorded. -/
theorem everyCommandEnds : Obligations.EveryCommandEnds := by
  intro i s
  have hend := exec_commandEnd i s
  generalize exec i s = r at hend ⊢
  cases hend with
  | raised k sub detail => exact ⟨_, rfl, .inr (.inl rfl)⟩
  | finished herr hcause hinfo hfaults => exact ⟨_, rfl, .inl ⟨rfl, rfl, herr, hcause, hinfo, hfaults⟩⟩
  | uninit => exact ⟨_, rfl, .inr (.inr rfl)⟩

/-! ### What the commands leave unchanged -/

/-- GF.EXP, GF.LOG, GF.MUL and MAT.GET write RESULT only. -/
theorem Writes.withResult {i : Instr} {s s' : State} (hw : Writes s i s')
    (hi : (∃ a, i = .gfExp a) ∨ (∃ a, i = .gfLog a) ∨ (∃ a b, i = .gfMul a b) ∨ (∃ r c, i = .matGet r c)) :
    ∃ w, s' = s.withResult w := by
  cases hw with
  | gfExp | gfLog | gfMul | matGet => exact ⟨_, rfl⟩
  | placer hcells => rcases hi with ⟨a, rfl⟩ | ⟨a, rfl⟩ | ⟨a, b, rfl⟩ | ⟨r, c, rfl⟩ <;> cases hcells
  | _ => simp at hi

/-- Settles O16: what the five commands write is RESULT or the ALIGN registers, and none of them reads a buffer byte. -/
theorem scalarFrame : Obligations.ScalarFrame := by
  constructor
  · intro i s t hi h
    obtain ⟨k, sub, detail, rfl⟩ | ⟨s', hw, rfl⟩ | ⟨hr, -⟩ := exec_next_ends h
    · rfl
    · obtain ⟨w, rfl⟩ := hw.withResult hi
      rfl
    · rcases hi with ⟨a, rfl⟩ | ⟨a, rfl⟩ | ⟨a, b, rfl⟩ | ⟨r, c, rfl⟩ <;> cases hr
  · intro n s t h
    obtain ⟨k, sub, detail, rfl⟩ | ⟨s', hw, rfl⟩ | ⟨hr, -⟩ := exec_next_ends h
    · rfl
    · cases hw with
      | spAcoord => rfl
      | placer hcells => cases hcells
    · cases hr

/-- POLY.MUL, POLY.MOD, POLY.GEN and RS.ENC write POLY_R only. -/
theorem Writes.withPolyR {i : Instr} {s s' : State} (hw : Writes s i s')
    (hi : (∃ p q, i = .polyMul p q) ∨ (∃ p q, i = .polyMod p q) ∨ (∃ n, i = .polyGen n) ∨ (∃ n, i = .rsEnc n)) :
    ∃ r, s' = s.withPolyR r := by
  cases hw with
  | polyMul | polyMod | polyGen | rsEnc => exact ⟨_, rfl⟩
  | placer hcells => rcases hi with ⟨p, q, rfl⟩ | ⟨p, q, rfl⟩ | ⟨n, rfl⟩ | ⟨n, rfl⟩ <;> cases hcells
  | _ => simp at hi

/-- Settles O22: a result in POLY_R is the only write of the four commands. -/
theorem polyFrame : Obligations.PolyFrame := by
  intro i s t hi h
  obtain ⟨k, sub, detail, rfl⟩ | ⟨s', hw, rfl⟩ | ⟨-, rfl⟩ := exec_next_ends h
  · exact ⟨fun _ _ => rfl, rfl⟩
  · obtain ⟨r, rfl⟩ := hw.withPolyR hi
    exact ⟨s.read_withPolyR_other r, rfl⟩
  · exact ⟨fun _ _ => rfl, rfl⟩

/-- Settles O28: RS.INIT writes the RS state; ILV.BUILD writes a stream of `T` codewords and then the RS state. -/
theorem rsStateFrame : Obligations.RsStateFrame := by
  constructor
  · intro n s t h
    obtain ⟨k, sub, detail, rfl⟩ | ⟨s', hw, rfl⟩ | ⟨hr, -⟩ := exec_next_ends h
    · exact ⟨fun _ _ => rfl, rfl⟩
    · cases hw with
      | rsInit => exact ⟨s.read_withRs_other n _, rfl⟩
      | placer hcells => cases hcells
    · cases hr
  · intro B e T s t h
    obtain ⟨k, sub, detail, rfl⟩ | ⟨s', hw, rfl⟩ | ⟨-, rfl⟩ := exec_next_ends h
    · exact ⟨fun _ _ _ => rfl, rfl⟩
    · cases hw with
      | @ilvBuild _ _ _ data hB hT hdata =>
        have hlen := buildStream_length B e T data hB hT ((s.bytes_eq_some _ _ _).1 hdata).1
        generalize buildStream B e T data = out at hlen ⊢
        subst hlen
        exact ⟨fun a hgen hout =>
          ((s.withStream out).read_withRs_other e _ a hgen).trans (s.read_withStream_other out a hout), rfl⟩
      | placer hcells => cases hcells
    · exact ⟨fun _ _ _ => rfl, rfl⟩

/-- MAT.SET, MAT.XOR and the six placers write cells only, and read no buffer byte. -/
theorem Writes.withGrid {i : Instr} {s s' : State} (hw : Writes s i s')
    (hi : (∃ r c v sr, i = .matSet r c v sr) ∨ (∃ r c v, i = .matXor r c v) ∨ (∃ cells, placerCells i = some cells)) :
    ∃ g, s' = s.withGrid g := by
  cases hw with
  | matSet | matXor | placer => exact ⟨_, rfl⟩
  | _ => simp [placerCells] at hi

/-- MAT.INIT and SP.PLACE write a new matrix. -/
theorem Writes.withNewMatrix {i : Instr} {s s' : State} (hw : Writes s i s')
    (hi : (∃ n, i = .matInit n) ∨ (∃ n, i = .spPlace n)) : ∃ n g, s' = (s.withNewMatrix n).withGrid g := by
  cases hw with
  | matInit => exact ⟨_, [], rfl⟩
  | spPlace => exact ⟨_, _, rfl⟩
  | placer hcells => rcases hi with ⟨n, rfl⟩ | ⟨n, rfl⟩ <;> cases hcells
  | _ => simp at hi

/-- Settles O34: cells are all that MAT.SET, MAT.XOR, DP.ZIGZAG and the placers write; MAT.INIT and SP.PLACE also set the side. -/
theorem matrixFrame : Obligations.MatrixFrame := by
  refine ⟨fun i s t hi h => ?cells, fun i s t hi h => ?newMatrix, fun s t h => ?zigzag⟩
  case cells =>
    obtain ⟨k, sub, detail, rfl⟩ | ⟨s', hw, rfl⟩ | ⟨hr, -⟩ := exec_next_ends h
    · rfl
    · obtain ⟨g, rfl⟩ := hw.withGrid (hi.imp_right fun hi => hi.imp_right placerCells_isSome)
      rfl
    · rcases hi with ⟨r, c, v, sr, rfl⟩ | ⟨r, c, v, rfl⟩ | rfl | rfl | rfl | rfl | rfl | rfl <;> cases hr
  case newMatrix =>
    obtain ⟨k, sub, detail, rfl⟩ | ⟨s', hw, rfl⟩ | ⟨hr, -⟩ := exec_next_ends h
    · rfl
    · obtain ⟨n, g, rfl⟩ := hw.withNewMatrix hi
      rfl
    · rcases hi with ⟨n, rfl⟩ | ⟨n, rfl⟩ <;> cases hr
  case zigzag =>
    obtain ⟨k, sub, detail, rfl⟩ | ⟨s', hw, rfl⟩ | ⟨-, rfl⟩ := exec_next_ends h
    · rfl
    · cases hw with
      | dpZigzag => rfl
      | placer hcells => cases hcells
    · rfl

/-! ### Reserved flags (10_state R47) -/

/-- Placements never clear a reserved flag. -/
theorem Grid.reserved_placeAll (g : Grid) (ps : List Placement) (r c : Nat) (h : (g.cell r c).reserved = true) :
    ((g.placeAll ps).cell r c).reserved = true := by
  induction ps generalizing g with
  | nil => exact h
  | cons p ps ih => exact ih _ (Grid.reserved_place g _ _ _ _ _ h)

/-- No write but a new matrix clears a reserved flag. -/
theorem Writes.reserved {i : Instr} {s s' : State} (hw : Writes s i s') (hinit : ∀ n, i ≠ .matInit n)
    (hplace : ∀ n, i ≠ .spPlace n) {r c : Nat} (h : (s.cell r c).reserved = true) : (s'.cell r c).reserved = true := by
  cases hw with
  | matInit => exact absurd rfl (hinit _)
  | spPlace => exact absurd rfl (hplace _)
  | @matSet r' c' v sr =>
    cases sr
    · exact (s.grid.reserved_setModule r' c' r c v).trans h
    · exact s.grid.reserved_place r' c' r c v h
  | matXor => exact (s.grid.reserved_setModule _ _ r c _).trans h
  | placer => exact s.grid.reserved_placeAll _ r c h
  | dpZigzag => exact (reserved_placeBits s.grid _ 0 _ r c).trans h
  | _ => exact h

/-- DP.ZIGZAG and MAT.XOR write module values only. -/
theorem Writes.reserved_eq {i : Instr} {s s' : State} (hw : Writes s i s')
    (hi : i = .dpZigzag ∨ ∃ r c v, i = .matXor r c v) (r c : Nat) : (s'.cell r c).reserved = (s.cell r c).reserved := by
  cases hw with
  | matXor => exact s.grid.reserved_setModule _ _ r c _
  | dpZigzag => exact reserved_placeBits s.grid _ 0 _ r c
  | placer hcells => rcases hi with rfl | ⟨r', c', v, rfl⟩ <;> cases hcells
  | _ => simp at hi

/-- Settles O50: a fault and an unwritten byte leave every cell, a completed command by what it writes. -/
theorem reservedFlagsStick : Obligations.ReservedFlagsStick := by
  intro i s t h hinit hplace r c
  obtain ⟨k, sub, detail, rfl⟩ | ⟨s', hw, rfl⟩ | ⟨-, rfl⟩ := exec_next_ends h
  · exact ⟨id, fun _ => rfl⟩
  · exact ⟨hw.reserved hinit hplace, fun hi => hw.reserved_eq hi r c⟩
  · exact ⟨id, fun _ => rfl⟩

end Sys2Proof.Machine
end

section
/-! PROOFS. The machine's invariant: it holds at reset, what a command writes keeps it, every end of a command keeps it, and so does
every access of the host. -/

namespace Sys2Proof.Machine

/-! ### The invariant at reset and at the ends of a command -/

/-- Settles O51: at reset nothing is listed, every register is 0 and no degree is set. -/
theorem invariantAtReset : Obligations.InvariantAtReset :=
  ⟨⟨rfl, rfl⟩, ⟨fun _ => ⟨rfl, rfl⟩, nofun, nofun⟩, ⟨by decide, by decide, fun k _ => State.reset_alignC k⟩, fun _ => rfl, nofun⟩

theorem Cause.code_range (k : Cause) : 1 ≤ k.code.toNat ∧ k.code.toNat ≤ 7 := by
  cases k <;> decide

theorem State.Inv.faultEnd {s : State} (h : s.Inv) (k : Cause) (sub detail : Nat) :
    (s.faultEntry k sub detail).endCommand.Inv :=
  have ⟨hform, _, hrange, hrs⟩ := h
  ⟨hform, ⟨nofun, fun _ => k.code_range, nofun⟩, hrange, hrs⟩

theorem State.Inv.complete {s : State} (h : s.Inv) : s.complete.Inv :=
  have ⟨hform, ⟨hclear, hset, _⟩, hrange, hrs⟩ := h
  ⟨hform, ⟨hclear, hset, nofun⟩, hrange, hrs⟩

theorem State.Inv.record {s : State} (h : s.Inv) (f : ModelFault) : (s.record f).Inv := h

/-! ### The invariant and what a command writes -/

/-- The RS encoder state stands in GEN's window and its two registers only (10_state R43). -/
theorem State.RsInv.congr {s t : State} (h : s.RsInv) (hv : t.rsValid = s.rsValid) (hd : t.rsDeg = s.rsDeg)
    (hgen : ∀ i, i < 256 → t.mem.read (0x1300 + i) = s.mem.read (0x1300 + i)) : t.RsInv := by
  obtain ⟨hunset, hset⟩ := h
  have hbytes : ∀ bs, s.bytes .gen 256 = some bs → t.bytes .gen 256 = some bs := fun bs hbs => by
    rw [State.bytes_eq_some] at hbs ⊢
    exact ⟨hbs.1, fun i hi => (hgen i hi).trans (hbs.2 i hi)⟩
  exact ⟨fun h0 => hd.trans (hunset (hv.symm.trans h0)), fun h1 => hd ▸ hbytes _ (hset (hv.symm.trans h1))⟩

theorem State.Inv.withPolyR {s : State} (h : s.Inv) {r : List Byte} (hr : r.length ≤ 256) : (s.withPolyR r).Inv := by
  obtain ⟨⟨hmem, hgrid⟩, hstatus, ⟨-, hside, halign⟩, hrs⟩ := h
  refine ⟨⟨s.wf_withPolyR r hmem, hgrid⟩, hstatus, ⟨?_, hside, halign⟩, hrs.congr rfl rfl fun i _ => ?_⟩
  · rw [s.withPolyR_rLen_toNat hr]; exact hr
  · exact s.read_withPolyR_other r _ (.inr (Nat.le_add_right 0x1300 i))

theorem State.Inv.withRs {s : State} (h : s.Inv) {n : Nat} (hn : n ≤ 255) : (s.withRs n (polygen n)).Inv := by
  obtain ⟨⟨hmem, hgrid⟩, hstatus, hrange, -⟩ := h
  refine ⟨⟨s.wf_withRs n _ hmem, hgrid⟩, hstatus, hrange, nofun, fun _ => ?_⟩
  rw [s.withRs_rsDeg_toNat hn, State.bytes_eq_some, padTo_length]
  refine ⟨rfl, fun i hi => ?_⟩
  rw [padTo_getD 256 i _ hi]
  exact s.read_withRs n _ i hi

theorem State.Inv.withStream {s : State} (h : s.Inv) {out : List Byte} (hl : out.length ≤ 4096) : (s.withStream out).Inv := by
  obtain ⟨⟨hmem, hgrid⟩, hstatus, hrange, hrs⟩ := h
  exact ⟨⟨s.wf_withStream out hl hmem, hgrid⟩, hstatus, hrange,
    hrs.congr rfl rfl fun i hi => s.read_withStream_other out _ (.inl (by omega))⟩

theorem State.Inv.withGrid {s : State} (h : s.Inv) {g : Grid} (hg : g.wf = true) : (s.withGrid g).Inv :=
  have ⟨⟨hmem, _⟩, hstatus, hrange, hrs⟩ := h
  ⟨⟨hmem, hg⟩, hstatus, hrange, hrs⟩

theorem State.Inv.withNewMatrix {s : State} (h : s.Inv) {n : Nat} (hn : n ≤ 177) : (s.withNewMatrix n).Inv := by
  obtain ⟨⟨hmem, -⟩, hstatus, ⟨hlen, -, halign⟩, hrs⟩ := h
  refine ⟨⟨hmem, rfl⟩, hstatus, ⟨hlen, ?_, halign⟩, hrs⟩
  rw [s.withNewMatrix_matSize_toNat hn]; exact hn

theorem State.Inv.withAlign {s : State} (h : s.Inv) {co : List Nat} (hco : co.length ≤ 7) : (s.withAlign co).Inv := by
  obtain ⟨hform, hstatus, ⟨hlen, hside, -⟩, hrs⟩ := h
  refine ⟨hform, hstatus, ⟨hlen, hside, fun k hk => ?_⟩, hrs⟩
  have hn : (s.withAlign co).alignN.toNat = co.length := by
    rw [State.withAlign_alignN, BitVec.toNat_ofNat]; omega
  have hnone : co[k.val]? = none := List.getElem?_eq_none (hn ▸ hk)
  simp [State.withAlign, hnone]

/-- What RS.ENC reads from GEN is the generator polynomial of the degree that was set. -/
theorem State.RsInv.bytes_gen {s : State} (h : s.RsInv) (hv : s.rsValid = true) :
    s.bytes .gen (s.rsDeg.toNat + 1) = some (polygen s.rsDeg.toNat) := by
  have hdeg : s.rsDeg.toNat < 256 := s.rsDeg.isLt
  obtain ⟨-, hwin⟩ := (s.bytes_eq_some _ _ _).1 (h.2 hv)
  refine (s.bytes_eq_some _ _ _).2 ⟨polygen_length _, fun i hi => ?_⟩
  rw [hwin i (by omega), padTo_getD 256 i _ (by omega)]

/-- The first byte of the run a command reads is the one its check has read. -/
theorem headD_of_firstByte {s : State} {b : Buffer} {n : Nat} {x : Byte} {d : List Byte} (hn : 1 ≤ n)
    (hx : s.firstByte b = some x) (hd : s.bytes b n = some d) : d.headD 0 = x := by
  have h0 := ((s.bytes_eq_some _ _ _).1 hd).2 0 hn
  rw [List.headD_eq_getD]
  exact Option.some.inj (h0.symm.trans hx)

theorem InSide.mono {m n : Nat} {ps : List Placement} (h : InSide m ps) (hmn : m ≤ n) : InSide n ps :=
  fun p hp => ⟨(h p hp).1.trans_le hmn, (h p hp).2.trans_le hmn⟩

/-- Each placer places in its symbol. -/
theorem placerCells_inSide {i : Instr} {cells : Nat → List Placement} (hi : placerCells i = some cells) {v : Nat}
    (hv : 1 ≤ v) (h177 : symbolSize v ≤ 177) : InSide (symbolSize v) (cells v) := by
  unfold symbolSize at h177
  have h21 : 21 ≤ symbolSize v := by unfold symbolSize; omega
  cases i <;> cases hi
  case spFinder => exact finderCells_inSide _
  case spTiming => exact timingCells_inSide _
  case spAlign => exact alignAll_inSide v (by omega)
  case spFormat => exact formatCells_inSide _ h21
  case spVersion => exact versionCells_inSide v _ h21
  case spDark => exact darkCells_inSide _ h21

/-- What a command with an encoding writes keeps the invariant. -/
theorem Writes.inv {i : Instr} {s s' : State} (hw : Writes s i s') (hwf : i.wellFormed = true) (h : s.Inv) : s'.Inv := by
  have hside : s.side ≤ 177 := h.2.2.1.2.1
  have hgrid : s.grid.wf = true := h.1.2
  cases hw with
  | gfExp | gfLog | gfMul | matGet => exact h
  | @polyMul p q a b hq hpq ha hb =>
    have hlb := ((s.bytes_eq_some _ _ _).1 hb).1
    refine h.withPolyR ?_
    rw [polymul_length a b (by omega), ((s.bytes_eq_some _ _ _).1 ha).1, hlb]; exact hpq
  | @polyMod p q a d hq hq256 hlead ha hd =>
    have hlen := polymod_length a d (headD_of_firstByte hq hlead hd)
    have hld := ((s.bytes_eq_some _ _ _).1 hd).1
    exact h.withPolyR (by omega)
  | polyGen hn => exact h.withPolyR (by rw [polygen_length]; omega)
  | rsInit hn => exact h.withRs hn
  | rsEnc hv hn hdata hg =>
    obtain rfl := Option.some.inj (hg.symm.trans (h.2.2.2.bytes_gen hv))
    refine h.withPolyR ?_
    rw [rsenc_length _ _ (polygen_headD _), polygen_length]
    have := s.rsDeg.isLt
    omega
  | @ilvBuild B e T data hB hT hdata =>
    simp only [Instr.wellFormed, Bool.and_eq_true, decide_eq_true_eq] at hwf
    have hlen := buildStream_length B e T data hB hT ((s.bytes_eq_some _ _ _).1 hdata).1
    exact (h.withStream (by omega)).withRs (by omega)
  | matInit h1 h177 => exact h.withNewMatrix h177
  | @matSet r c v sr hr hc =>
    refine h.withGrid ?_
    split
    · exact Grid.wf_place _ r c v (by omega) (by omega) hgrid
    · exact Grid.wf_setModule _ r c v (by omega) (by omega) hgrid
  | matXor v hr hc => exact h.withGrid (Grid.wf_setModule _ _ _ _ (by omega) (by omega) hgrid)
  | spAcoord h1 h40 => exact h.withAlign (acoords_length_le _ (by omega))
  | @placer _ _ v hi hv hs =>
    have h177 : symbolSize v ≤ 177 := hs ▸ hside
    exact h.withGrid (Grid.wf_placeAll _ _ ((placerCells_inSide hi hv h177).mono h177) hgrid)
  | @spPlace n h1 h40 =>
    have h177 : symbolSize n ≤ 177 := by unfold symbolSize; omega
    exact (h.withNewMatrix h177).withGrid
      (Grid.wf_placeAll _ _ ((structureCells_inSide _ h1 (by omega)).mono h177) rfl)
  | dpZigzag =>
    refine h.withGrid (wf_placeBits _ _ _ _ (fun p hp => ?_) hgrid)
    have := zigzag_inSide _ _ p hp
    omega

/-- Every end of a command with an encoding keeps the invariant. -/
theorem exec_inv {i : Instr} {s t : State} (hwf : i.wellFormed = true) (h : s.Inv) (hexec : exec i s = .next t) : t.Inv := by
  obtain ⟨k, sub, detail, rfl⟩ | ⟨s', hw, rfl⟩ | ⟨-, rfl⟩ := exec_next_ends hexec
  · exact h.faultEnd k sub detail
  · exact (hw.inv hwf h).complete
  · exact h.record _

/-! ### The invariant and the host's accesses -/

theorem State.writeStatus_eq (s : State) (w : Word) : s.writeStatus w = { s with
    done := s.done && !w.getLsbD 1
    err := s.err && !w.getLsbD 2
    cause := if w.getLsbD 2 then 0 else s.cause
    info := if w.getLsbD 2 then 0 else s.info
    ovr := s.ovr && !w.getLsbD 3 } :=
  (s.memWrite_csr (r := .status) rfl w).symm.trans (statusWriteClears s w)

/-- A write by what it reaches: no address, STATUS, CMD, or something that a pending command keeps from being written. -/
theorem State.memWrite_cases (s : State) (addr : Addr) (w : Word) :
    (target addr = .unmapped ∧ s.memWrite addr w = s.record .busError) ∨ s.memWrite addr w = s.writeStatus w ∨ s.memWrite addr w = s.writeCmd w ∨
    ∃ s', s.memWrite addr w = s.unlessBusy s' ∧
      (s' = s ∨ s' = s.writeCwLen w ∨ ∃ b i, i < b.size ∧ s' = s.writeByte b i w) := by
  obtain ⟨r, ht⟩ | ⟨b, i, ht, hi, -⟩ | ht := target_cases addr
  · rw [State.memWrite_csr ht]
    obtain ⟨-, h⟩ | ⟨-, h⟩ | ⟨-, h⟩ | ⟨-, -, -, h⟩ := s.writeCsr_cases r w
    · exact .inr (.inl h)
    · exact .inr (.inr (.inl h))
    · exact .inr (.inr (.inr ⟨_, h, .inr (.inl rfl)⟩))
    · exact .inr (.inr (.inr ⟨_, h, .inl rfl⟩))
  · exact .inr (.inr (.inr ⟨_, State.memWrite_byte ht s w, .inr (.inr ⟨b, i, hi, rfl⟩)⟩))
  · exact .inl ⟨ht, by simp [State.memWrite, ht]⟩

theorem State.Inv.writeStatus {s : State} (h : s.Inv) (w : Word) : (s.writeStatus w).Inv := by
  obtain ⟨hform, ⟨hclear, hset, hbusy⟩, hrange, hrs⟩ := h
  rw [State.writeStatus_eq]
  refine ⟨hform, ⟨?_, ?_, ?_⟩, hrange, hrs⟩
  all_goals dsimp only
  · cases w.getLsbD 2
    · simpa using hclear
    · simp
  · cases w.getLsbD 2
    · simpa using hset
    · simp
  · exact fun hb => by simp [hbusy hb]

theorem State.Inv.writeCmd {s : State} (h : s.Inv) (w : Word) : (s.writeCmd w).Inv := by
  obtain ⟨hform, ⟨hclear, hset, hbusy⟩, hrange, hrs⟩ := h
  unfold State.writeCmd
  split
  · exact ⟨hform, ⟨hclear, hset, hbusy⟩, hrange, hrs⟩
  · split
    · exact ⟨hform, ⟨hclear, hset, hbusy⟩, hrange, hrs⟩
    · rename_i herr
      exact ⟨hform, ⟨hclear, hset, fun _ => ⟨rfl, by simpa using herr⟩⟩, hrange, hrs⟩

/-- The host writes no byte of GEN. -/
theorem State.Inv.writeByte {s : State} (h : s.Inv) {b : Buffer} {i : Nat} (hi : i < b.size) (w : Word) :
    (s.writeByte b i w).Inv := by
  obtain ⟨⟨hmem, hgrid⟩, hstatus, hrange, hrs⟩ := h
  have hwf := s.wf_writeByte b i w hi hmem
  unfold State.writeByte at hwf ⊢
  split
  · rename_i hb
    rw [if_pos hb] at hwf
    refine ⟨⟨hwf, hgrid⟩, hstatus, hrange, hrs.congr rfl rfl fun j hj => Memory.read_write_other _ _ ?_⟩
    cases b <;> simp [Buffer.hostWritable, Buffer.size, Buffer.base, Config.polyCap, Config.cwCap] at hb hi ⊢ <;> omega
  · exact ⟨⟨hmem, hgrid⟩, hstatus, hrange, hrs⟩

theorem State.Inv.memWrite {s : State} (h : s.Inv) (addr : Addr) (w : Word) : (s.memWrite addr w).Inv := by
  obtain ⟨-, heq⟩ | heq | heq | ⟨s', heq, hs'⟩ := s.memWrite_cases addr w <;> rw [heq]
  · exact h.record _
  · exact h.writeStatus w
  · exact h.writeCmd w
  · unfold State.unlessBusy
    split
    · exact h.record _
    · obtain rfl | rfl | ⟨b, i, hi, rfl⟩ := hs'
      · exact h
      · exact h
      · exact h.writeByte hi w

theorem State.Inv.hostRead {s : State} (h : s.Inv) (addr : Addr) : (s.hostRead addr).Inv := by
  unfold State.hostRead
  split
  · exact h
  · exact h.record _

theorem State.Inv.hostTurn {s : State} (h : s.Inv) : s.hostTurn.Inv := by
  have htook : ∀ rest, (s.took rest).Inv := fun _ => h
  unfold State.hostTurn
  split
  · exact h
  · exact (htook _).hostRead _
  · exact (htook _).memWrite _ _
  · unfold State.poll
    split <;> exact htook _
  · exact invariantAtReset

/-- Settles O52: an engine step performs a command with an encoding or raises ILLEGAL, and every turn of the host keeps the
invariant. -/
theorem stepKeepsInvariant : Obligations.StepKeepsInvariant := by
  intro s t h hstep
  obtain ⟨-, ⟨-, i, hd, hexec⟩ | ⟨-, why, -, rfl⟩ | ⟨-, rfl⟩⟩ := step_next_cases hstep
  · exact exec_inv (encodeOfDecode _ _ hd).1 h hexec
  · exact h.faultEnd _ _ _
  · exact h.hostTurn

/-! ### RS_VALID (10_state R32) -/

theorem Writes.rsValid {i : Instr} {s s' : State} (hw : Writes s i s') (h : s.rsValid = true) : s'.rsValid = true := by
  cases hw with
  | rsInit | ilvBuild => rfl
  | _ => exact h

theorem State.memWrite_rsValid (s : State) (addr : Addr) (w : Word) : (s.memWrite addr w).rsValid = s.rsValid := by
  obtain ⟨-, heq⟩ | heq | heq | ⟨s', heq, hs'⟩ := s.memWrite_cases addr w <;> rw [heq]
  · rfl
  · rw [State.writeStatus_eq]
  · unfold State.writeCmd; split
    · rfl
    · split <;> rfl
  · unfold State.unlessBusy; split
    · rfl
    · obtain rfl | rfl | ⟨b, i, -, rfl⟩ := hs'
      · rfl
      · rfl
      · unfold State.writeByte; split <;> rfl

/-- Every turn of the host but the reset input keeps RS_VALID. -/
theorem State.hostTurn_rsValid (s : State) : s.hostTurn.rsValid = s.rsValid ∨ ∃ rest, s.script = .reset :: rest := by
  unfold State.hostTurn
  split
  · exact .inl rfl
  · unfold State.hostRead; split <;> exact .inl rfl
  · exact .inl (State.memWrite_rsValid _ _ _)
  · unfold State.poll; split <;> exact .inl rfl
  · exact .inr ⟨_, ‹_›⟩

/-- Settles O53: no command clears RS_VALID, and no turn of the host but the reset input does. -/
theorem onlyResetClearsRsValid : Obligations.OnlyResetClearsRsValid := by
  intro s t hstep hbefore hafter
  obtain ⟨-, ⟨-, i, -, hexec⟩ | ⟨-, why, -, rfl⟩ | ⟨hturn, rfl⟩⟩ := step_next_cases hstep
  · have hkept : t.rsValid = true := by
      obtain ⟨k, sub, detail, rfl⟩ | ⟨s', hw, rfl⟩ | ⟨-, rfl⟩ := exec_next_ends hexec
      · exact hbefore
      · exact hw.rsValid hbefore
      · exact hbefore
    exact absurd (hkept.symm.trans hafter) nofun
  · exact absurd (hbefore.symm.trans hafter) nofun
  · refine ⟨hturn, s.hostTurn_rsValid.resolve_left fun hkept => ?_⟩
    exact absurd (hbefore.symm.trans (hkept.symm.trans hafter)) nofun

end Sys2Proof.Machine
end

section
/-! PROOFS. One step by whose turn it is (20_memory R71, 60_exceptions R300), the accesses of the host port by their addresses (R61,
R65, R72), and that a wait ends (70_reset_and_hazards R361). -/

namespace Sys2Proof.Machine

/-! ### Whose turn it is -/

theorem step_engine {s : State} {i : Instr} (hf : s.faults = []) (he : s.engineTurn = true) (hd : decode s.cmd = .cmd i) :
    step s = exec i s := by
  simp [step, hf, he, engineStep, hd]

theorem step_host {s : State} (hf : s.faults = []) (he : s.engineTurn = false) : step s = .next s.hostTurn := by
  simp [step, hf, he]

theorem decodeTableWord_eq_some {nbits w : Nat} {i : Instr} (h : decodeTableWord nbits w = some i) :
    decode (BitVec.ofNat 32 (w % 2 ^ nbits)) = .cmd i := by
  unfold decodeTableWord at h
  split at h
  · rename_i j hd
    rw [hd, Option.some.inj h]
  · cases h

/-- Settles O6: a placed word leaves no host action before it. -/
theorem stepPerformsPendingCommand : Obligations.StepPerformsPendingCommand :=
  ⟨fun _ _ hf he hd => step_engine hf he hd,
    fun s nbits w _ h => step_engine (s := s.withFetchWord nbits w) rfl rfl (decodeTableWord_eq_some h)⟩

/-- Settles O10: a recorded fault is what the step looks at first. -/
theorem faultedStateHasNoStep : Obligations.FaultedStateHasNoStep := by
  intro s f fs hf
  simp [step, hf]

/-- Settles O9: the reset input is the host's turn. -/
theorem resetInputResets : Obligations.ResetInputResets := by
  intro s rest hf he hscript
  rw [step_host hf he, State.hostTurn, hscript]
  rfl

/-- Bit 0 of STATUS is BUSY (10_state R23). -/
theorem State.statusWord_busy (s : State) : s.statusWord.getLsbD 0 = s.busy := by
  simp [State.statusWord, flagBit]

theorem State.poll_eq (s : State) (rest : List HostOp) :
    s.poll rest = if s.busy then s.took (.wait :: rest) else s.took rest := by
  rw [State.poll, State.statusWord_busy]

theorem State.hostTurn_wait_idle {s : State} {rest : List HostOp} (hscript : s.script = .wait :: rest) (hidle : s.busy = false) :
    s.hostTurn = { s with script := rest, lat := s.lat - 1 } := by
  simp [State.hostTurn, hscript, State.poll_eq, hidle, State.took]

theorem State.hostTurn_wait_busy {s : State} {rest : List HostOp} (hscript : s.script = .wait :: rest) (hbusy : s.busy = true) :
    s.hostTurn = { s with lat := s.lat - 1 } := by
  simp [State.hostTurn, hscript, State.poll_eq, hbusy, State.took]

/-- A read does not depend on the host's own record. -/
theorem State.memRead_took (s : State) (rest : List HostOp) (addr : Addr) : (s.took rest).memRead addr = s.memRead addr := by
  unfold State.memRead
  cases target addr with
  | unmapped | byte => rfl
  | csr r => cases r <;> rfl

theorem State.hostRead_data {s : State} {addr : Addr} {w : Word} (h : s.memRead addr = .data w) :
    s.hostRead addr = { s with reads := s.reads ++ [w] } := by
  simp [State.hostRead, h]

theorem State.hostRead_modelFault {s : State} {addr : Addr} {f : ModelFault} (h : s.memRead addr = .modelFault f) :
    s.hostRead addr = s.record f := by
  simp [State.hostRead, h]

/-- Settles O8: the host's turn by its next action. -/
theorem hostTurnPerformsAccess : Obligations.HostTurnPerformsAccess := by
  intro s hf he
  rw [step_host hf he]
  refine ⟨fun hscript => ?idle, fun a rest w hscript hread => ?data, fun a rest f hscript hread => ?fault,
    fun a w rest hscript => ?write, fun rest hscript hidle => ?ended, fun rest hscript hbusy => ?polled⟩
  case idle => simp only [State.hostTurn, hscript]
  case data =>
    simp only [State.hostTurn, hscript, State.hostRead_data ((s.memRead_took rest a).trans hread)]
    rfl
  case fault =>
    simp only [State.hostTurn, hscript, State.hostRead_modelFault ((s.memRead_took rest a).trans hread)]
    simp only [State.record, State.took, hf, List.nil_append]
  case write =>
    simp only [State.hostTurn, hscript]
    rfl
  case ended => rw [State.hostTurn_wait_idle hscript hidle]
  case polled => rw [State.hostTurn_wait_busy hscript hbusy]

/-! ### The end of a wait (70_reset_and_hazards R361) -/

theorem Writes.host {i : Instr} {s s' : State} (hw : Writes s i s') : s'.script = s.script ∧ s'.faults = s.faults := by
  cases hw <;> exact ⟨rfl, rfl⟩

/-- An engine step ends with BUSY 0 and the host's script as it was, or records a model-only fault. -/
theorem engineStep_next (s : State) :
    ∃ t, engineStep s = .next t ∧ ((t.busy = false ∧ t.script = s.script ∧ t.faults = s.faults) ∨ t.faults ≠ []) := by
  unfold engineStep
  split
  · rename_i i _
    have hend := exec_ends i s
    generalize exec i s = r at hend ⊢
    cases hend with
    | raised k sub detail => exact ⟨_, rfl, .inl ⟨rfl, rfl, rfl⟩⟩
    | wrote hw => exact ⟨_, rfl, .inl ⟨rfl, hw.host⟩⟩
    | uninit => exact ⟨_, rfl, .inr (by simp)⟩
  · exact ⟨_, rfl, .inl ⟨rfl, rfl, rfl⟩⟩

theorem run_succ {s t : State} {k : Nat} (h : step s = .next t) : core.run (k + 1) s = core.run k t := by
  have hstep : core.step s = .next t := h
  simp only [Host.Core.run, hstep]

/-- Settles O11: each poll takes one host action off the latency, and once it is used up the engine moves. -/
theorem waitEnds : Obligations.WaitEnds := by
  intro s rest hf hbusy hscript
  generalize hn : s.lat = n
  induction n generalizing s with
  | zero =>
    have he : s.engineTurn = true := by simp [State.engineTurn, hbusy, hn]
    obtain ⟨t, hstep, hend⟩ := engineStep_next s
    have hrun : step s = .next t := by simpa [step, hf, he] using hstep
    obtain ⟨hidle, hs, hfaults⟩ | hfaults := hend
    · have hpoll : step t = .next t.hostTurn := step_host (hfaults.trans hf) (by simp [State.engineTurn, hidle])
      rw [State.hostTurn_wait_idle (hs.trans hscript) hidle] at hpoll
      exact ⟨2, _, (run_succ hrun).trans (run_succ hpoll), .inl ⟨hidle, rfl, hfaults.trans hf⟩⟩
    · exact ⟨1, t, run_succ hrun, .inr hfaults⟩
  | succ n ih =>
    have he : s.engineTurn = false := by simp [State.engineTurn, hn, hscript]
    have hpoll := step_host hf he
    rw [State.hostTurn_wait_busy hscript hbusy] at hpoll
    obtain ⟨k, t, hrun, hend⟩ := ih { s with lat := s.lat - 1 } hf hbusy hscript (by dsimp only; omega)
    exact ⟨k + 1, t, (run_succ hpoll).trans hrun, hend⟩

/-! ### The address map (20_memory R61) -/

/-- The addresses of the registers. -/
theorem csrAt_isSome_iff : ∀ n, n < 0x17 → ((csrAt n).isSome = true ↔ n ≤ 0x0A ∨ 0x10 ≤ n) := by
  decide

theorem target_unmapped {addr : Addr}
    (h : ¬(addr.toNat ≤ 0x0A ∨ (0x10 ≤ addr.toNat ∧ addr.toNat ≤ 0x16) ∨ (0x1000 ≤ addr.toNat ∧ addr.toNat ≤ 0x13FF) ∨
      (0x2000 ≤ addr.toNat ∧ addr.toNat ≤ 0x3FFF))) : target addr = .unmapped := by
  have hcsr : csrAt addr.toNat = none := by
    by_cases hn : addr.toNat < 0x17
    · rw [← Option.not_isSome_iff_eq_none, csrAt_isSome_iff _ hn]; omega
    · exact csrAt_none (not_lt.1 hn)
  have hbuf : bufferAt addr.toNat = none := by
    unfold bufferAt
    simp only [show ¬(0x1000 ≤ addr.toNat ∧ addr.toNat < 0x1100) by omega,
      show ¬(0x1100 ≤ addr.toNat ∧ addr.toNat < 0x1200) by omega, show ¬(0x1200 ≤ addr.toNat ∧ addr.toNat < 0x1300) by omega,
      show ¬(0x1300 ≤ addr.toNat ∧ addr.toNat < 0x1400) by omega, show ¬(0x2000 ≤ addr.toNat ∧ addr.toNat < 0x3000) by omega,
      show ¬(0x3000 ≤ addr.toNat ∧ addr.toNat < 0x4000) by omega, if_false]
  simp [target, hcsr, hbuf]

theorem target_csr {addr : Addr} (h : addr.toNat ≤ 0x0A ∨ (0x10 ≤ addr.toNat ∧ addr.toNat ≤ 0x16)) :
    ∃ r, csrAt addr.toNat = some r ∧ target addr = .csr r := by
  obtain ⟨r, hr⟩ := Option.isSome_iff_exists.1 ((csrAt_isSome_iff addr.toNat (by omega)).2 (by omega))
  exact ⟨r, hr, by simp [target, hr]⟩

theorem target_mapped {addr : Addr}
    (h : addr.toNat ≤ 0x0A ∨ (0x10 ≤ addr.toNat ∧ addr.toNat ≤ 0x16) ∨ (0x1000 ≤ addr.toNat ∧ addr.toNat ≤ 0x13FF) ∨
      (0x2000 ≤ addr.toNat ∧ addr.toNat ≤ 0x3FFF)) : target addr ≠ .unmapped := by
  by_cases hw : 0x1000 ≤ addr.toNat
  · obtain ⟨b, i, ht⟩ := target_window (addr := addr) (by omega)
    rw [ht]; nofun
  · obtain ⟨r, -, ht⟩ := target_csr (addr := addr) (by omega)
    rw [ht]; nofun

/-! ### The hazards of an access (20_memory R65, R72) -/

theorem State.memRead_ne_busError {s : State} {addr : Addr} (ht : target addr ≠ .unmapped) :
    s.memRead addr ≠ .modelFault .busError := by
  unfold State.memRead
  split
  · exact absurd ‹_› ht
  · split <;> nofun
  · split
    · nofun
    · split <;> nofun

theorem State.unlessBusy_busy {s : State} (hbusy : s.busy = true) (s' : State) : s.unlessBusy s' = s.record .busyAccess := by
  simp [State.unlessBusy, hbusy]

/-- A mapped write records nothing while idle, and one of two faults while BUSY. -/
theorem State.memWrite_faults {s : State} {addr : Addr} (ht : target addr ≠ .unmapped) (w : Word) :
    (s.memWrite addr w).faults = s.faults ∨
      (s.busy = true ∧ ((s.memWrite addr w).faults = s.faults ++ [.busyAccess] ∨
        (s.memWrite addr w).faults = s.faults ++ [.cmdWhileBusy])) := by
  obtain ⟨hun, -⟩ | heq | heq | ⟨s', heq, hs'⟩ := s.memWrite_cases addr w
  · exact absurd hun ht
  · rw [heq, State.writeStatus_eq]; exact .inl rfl
  · rw [heq, State.writeCmd]
    split
    · exact .inr ⟨‹_›, .inr rfl⟩
    · split <;> exact .inl rfl
  · rw [heq, State.unlessBusy]
    split
    · exact .inr ⟨‹_›, .inl rfl⟩
    · obtain rfl | rfl | ⟨b, i, -, rfl⟩ := hs'
      · exact .inl rfl
      · exact .inl rfl
      · unfold State.writeByte
        split <;> exact .inl rfl

/-- Settles O58: by what the address reaches. -/
theorem unmappedAccessIsBusError : Obligations.UnmappedAccessIsBusError := by
  intro s a w mapped
  refine ⟨fun h => ?_, fun h => ?_⟩
  · have ht := target_unmapped h
    exact ⟨by simp [State.memRead, ht], by simp [State.memWrite, ht, State.record]⟩
  · have ht := target_mapped h
    exact ⟨State.memRead_ne_busError ht, State.memWrite_faults ht w⟩

/-- Settles O55: CMD by the phase and ERR. -/
theorem cmdWriteRule : Obligations.CmdWriteRule := by
  intro s w
  rw [State.memWrite_csr (r := .cmd) rfl]
  refine ⟨fun hbusy => ?_, fun hidle herr => ?_, fun hidle herr => ⟨Config.lat s.latIndex, s.latIndex + 1, ?_⟩⟩
  · simp [State.writeCsr, State.writeCmd, hbusy, State.record]
  · simp [State.writeCsr, State.writeCmd, hidle, herr]
  · simp [State.writeCsr, State.writeCmd, hidle, herr, State.accept]

/-! ### Accesses while BUSY (20_memory R72) -/

theorem State.memRead_csr_readable {s : State} {addr : Addr} {r : Csr} (ht : target addr = .csr r)
    (hr : r.readableWhileBusy = true) : s.memRead addr = .data (s.readCsr r) := by
  simp [State.memRead, ht, hr]

theorem State.memRead_csr_hazard {s : State} {addr : Addr} {r : Csr} (ht : target addr = .csr r)
    (hr : r.readableWhileBusy = false) (hbusy : s.busy = true) : s.memRead addr = .modelFault .busyAccess := by
  simp [State.memRead, ht, hr, hbusy]

theorem State.memRead_byte_hazard {s : State} {addr : Addr} {b : Buffer} {i : Nat} (ht : target addr = .byte b i)
    (hbusy : s.busy = true) : s.memRead addr = .modelFault .busyAccess := by
  simp [State.memRead, ht, hbusy]

/-- Only STATUS and CMD have a write of their own while BUSY. -/
theorem State.memWrite_csr_hazard {s : State} {addr : Addr} {r : Csr} (ht : target addr = .csr r)
    (hr : r ≠ .status ∧ r ≠ .cmd) (hbusy : s.busy = true) (w : Word) : s.memWrite addr w = s.record .busyAccess := by
  rw [State.memWrite_csr ht]
  obtain ⟨hs, -⟩ | ⟨hc, -⟩ | ⟨-, h⟩ | ⟨-, -, -, h⟩ := s.writeCsr_cases r w
  · exact absurd hs hr.1
  · exact absurd hc hr.2
  · rw [h, State.unlessBusy_busy hbusy]
  · rw [h, State.unlessBusy_busy hbusy]

/-- The registers that a read while BUSY must not touch, by their addresses. -/
theorem csrAt_unreadable : ∀ n, n < 0x17 → 5 ≤ n → (csrAt n).all (fun r => r.readableWhileBusy == false) = true := by
  decide

/-- The registers that a write while BUSY must not touch, by their addresses. -/
theorem csrAt_unwritable : ∀ n, n < 0x17 → n ≠ 1 → n ≠ 4 → (csrAt n).all (fun r => r != .status && r != .cmd) = true := by
  decide

/-- Settles O59: the readable registers at 0 to 4, and every other mapped address a register or a window. -/
theorem busyAccessHazard : Obligations.BusyAccessHazard := by
  intro s a w hbusy
  have read : ∀ {addr : Addr} (r : Csr), target addr = .csr r → r.readableWhileBusy = true → s.memRead addr = .data (s.readCsr r) :=
    fun _ ht hr => State.memRead_csr_readable ht hr
  have hstatus : s.statusWord = BitVec.ofNat 32 (1 + 2 * s.done.toNat + 4 * s.err.toNat + 8 * s.ovr.toNat +
      16 * s.rsValid.toNat) := by
    rw [State.statusWord_eq_ofNat, hbusy]; rfl
  refine ⟨read .id rfl rfl, hstatus ▸ read .status rfl rfl, ?_, read .info rfl rfl, read .cmd rfl rfl, fun ha => ?_, fun ha => ?_⟩
  · rw [BitVec.ofNat_toNat]
    exact read .cause rfl rfl
  · by_cases hw : 0x1000 ≤ a.toNat
    · obtain ⟨b, i, ht⟩ := target_window (addr := a) (by omega)
      exact State.memRead_byte_hazard ht hbusy
    · obtain ⟨r, hr, ht⟩ := target_csr (addr := a) (by omega)
      have hall := csrAt_unreadable a.toNat (by omega) (by omega)
      rw [hr] at hall
      exact State.memRead_csr_hazard ht (by simpa using hall) hbusy
  · by_cases hw : 0x1000 ≤ a.toNat
    · obtain ⟨b, i, ht⟩ := target_window (addr := a) (by omega)
      rw [State.memWrite_byte ht, State.unlessBusy_busy hbusy, State.record]
    · obtain ⟨r, hr, ht⟩ := target_csr (addr := a) (by omega)
      have hall := csrAt_unwritable a.toNat (by omega) (by omega) (by omega)
      rw [hr] at hall
      rw [State.memWrite_csr_hazard ht (by simpa using hall) hbusy, State.record]

end Sys2Proof.Machine
end

section
/-! PROOFS. The field laws (40_galois_field R124), the division of polynomials (41_polynomial R143-R145), the roots of the generator
polynomial (R146) and the systematic code (42_reed_solomon R163-R165). -/

namespace Sys2Proof.Machine

/-! ### The field (R124) -/

theorem byte_xor_zero (a : Byte) : a ^^^ 0 = a := BitVec.xor_zero

theorem byte_zero_xor (a : Byte) : 0 ^^^ a = a := BitVec.zero_xor

theorem byte_xor_self (a : Byte) : a ^^^ a = 0 := BitVec.xor_self

theorem byte_xor_eq_zero {a b : Byte} : a ^^^ b = 0 ↔ a = b := BitVec.xor_eq_zero_iff

theorem exists_gfexp {a : Byte} (ha : a ≠ 0) : ∃ i, a = gfexp i :=
  ⟨gflog a, (gfexp_gflog a ha).symm⟩

theorem gfmul_assoc (a b c : Byte) : gfmul (gfmul a b) c = gfmul a (gfmul b c) := by
  by_cases ha : a = 0
  · rw [ha, zero_gfmul, zero_gfmul, zero_gfmul]
  by_cases hb : b = 0
  · rw [hb, gfmul_zero, zero_gfmul, gfmul_zero]
  by_cases hc : c = 0
  · rw [hc, gfmul_zero, gfmul_zero, gfmul_zero]
  obtain ⟨i, rfl⟩ := exists_gfexp ha
  obtain ⟨j, rfl⟩ := exists_gfexp hb
  obtain ⟨k, rfl⟩ := exists_gfexp hc
  rw [gfmul_gfexp, gfmul_gfexp, gfmul_gfexp, gfmul_gfexp, Nat.add_assoc]

/-- Multiplying by a power is so many multiplications by alpha, each of which is linear over XOR. -/
theorem gfmul_gfexp_xor (i : Nat) (b c : Byte) : gfmul (gfexp i) (b ^^^ c) = gfmul (gfexp i) b ^^^ gfmul (gfexp i) c := by
  induction i with
  | zero => rw [show gfexp 0 = 1 from rfl, one_gfmul, one_gfmul, one_gfmul]
  | succ i ih => rw [gfmul_gfexp_succ, gfmul_gfexp_succ, gfmul_gfexp_succ, ih, timesAlpha_xor]

theorem gfmul_xor (a b c : Byte) : gfmul a (b ^^^ c) = gfmul a b ^^^ gfmul a c := by
  by_cases ha : a = 0
  · rw [ha, zero_gfmul, zero_gfmul, zero_gfmul, byte_xor_zero]
  · obtain ⟨i, rfl⟩ := exists_gfexp ha
    exact gfmul_gfexp_xor i b c

theorem xor_gfmul (a b c : Byte) : gfmul (a ^^^ b) c = gfmul a c ^^^ gfmul b c := by
  rw [gfmul_comm, gfmul_xor, gfmul_comm c a, gfmul_comm c b]

/-- The inverse of a power is the power that completes its exponent to 255. -/
theorem exists_gfmul_eq_one {a : Byte} (ha : a ≠ 0) : ∃ x, gfmul a x = 1 := by
  refine ⟨gfexp (255 - gflog a), ?_⟩
  have hlt := gflog_lt a
  rw [← gfexp_gflog a ha, gfmul_gfexp, gflog_gfexp, Nat.mod_eq_of_lt hlt, show gflog a + (255 - gflog a) = 0 + 255 by omega,
    gfexp_add_255]
  rfl

/-- Settles O15: the laws through the exponents; an inverse is unique because the product is associative. -/
theorem fieldLaws : Obligations.FieldLaws := by
  intro a b c
  refine ⟨gfmul_comm a b, gfmul_assoc a b c, gfmul_xor a b c, one_gfmul a, fun ha => ?_⟩
  obtain ⟨x, hx⟩ := exists_gfmul_eq_one ha
  refine ⟨x, hx, fun y hy => ?_⟩
  calc y = gfmul (gfmul a x) y := by rw [hx, one_gfmul]
    _ = gfmul x (gfmul a y) := by rw [gfmul_comm a x, gfmul_assoc]
    _ = x := by rw [hy, gfmul_one]

/-- There are no divisors of 0. -/
theorem gfmul_eq_zero {a b : Byte} : gfmul a b = 0 ↔ a = 0 ∨ b = 0 := by
  refine ⟨fun h => ?_, fun h => if_pos h⟩
  by_contra hne
  obtain ⟨ha, hb⟩ := not_or.1 hne
  rw [gfmul_of_ne ha hb] at h
  exact gfexp_ne_zero _ h

/-! ### The roots of the generator polynomial (R146) -/

/-- The loop of `evalAt` from a value already reached. -/
def evalFrom (x u : Byte) (p : List Byte) : Byte := p.foldl (fun acc c => gfmul acc x ^^^ c) u

theorem evalFrom_cons (x u c : Byte) (p : List Byte) : evalFrom x u (c :: p) = evalFrom x (gfmul u x ^^^ c) p := rfl

theorem polymul_cons_factor (c g : Byte) (p : List Byte) :
    polymul (c :: p) [1, g] = c :: xorInto [gfmul g c] (polymul p [1, g]) := by
  simp only [polymul, scale, xorInto, List.map_cons, List.map_nil, one_gfmul, byte_xor_zero]

/-- Evaluating a product by `x - g`, the carry `k` into its next coefficient and the value `v` of those before it keep pace with the
value `u` of the other factor. -/
theorem evalFrom_polymul_factor (x g u v k : Byte) (p : List Byte) (h : gfmul v x ^^^ k = gfmul u (x ^^^ g)) :
    evalFrom x v (xorInto [k] (polymul p [1, g])) = gfmul (evalFrom x u p) (x ^^^ g) := by
  induction p generalizing u v k with
  | nil =>
    show gfmul v x ^^^ (k ^^^ 0) = _
    rw [byte_xor_zero, h]; rfl
  | cons c p ih =>
    rw [polymul_cons_factor, evalFrom_cons]
    show evalFrom x v ((k ^^^ c) :: xorInto [gfmul g c] (polymul p [1, g])) = _
    rw [evalFrom_cons]
    refine ih _ _ _ ?_
    rw [← BitVec.xor_assoc, h, xor_gfmul, xor_gfmul, gfmul_xor c, gfmul_assoc, gfmul_assoc, gfmul_comm (x ^^^ g) x,
      gfmul_comm g c, BitVec.xor_assoc]

theorem evalAt_polymul_factor (p : List Byte) (g x : Byte) : evalAt (polymul p [1, g]) x = gfmul (evalAt p x) (x ^^^ g) := by
  have hz : polymul p [1, g] = xorInto [0] (polymul p [1, g]) := by
    cases polymul p [1, g] with
    | nil => rfl
    | cons y r => rw [xorInto, byte_zero_xor]; rfl
  rw [hz]
  exact evalFrom_polymul_factor x g 0 0 0 p (by rw [zero_gfmul, zero_gfmul, byte_xor_zero])

/-- Settles O21: each factor of the product adds its root. -/
theorem generatorRoots : Obligations.GeneratorRoots := by
  intro n x
  induction n with
  | zero =>
    have hone : evalAt (polygen 0) x = 1 := by
      show gfmul 0 x ^^^ 1 = 1
      rw [zero_gfmul, byte_zero_xor]
    simp [hone]
  | succ n ih =>
    rw [polygen, evalAt_polymul_factor, gfmul_eq_zero, ih, byte_xor_eq_zero]
    constructor
    · rintro (⟨i, hi, hx⟩ | hx)
      · exact ⟨i, by omega, hx⟩
      · exact ⟨n, by omega, hx⟩
    · rintro ⟨i, hi, hx⟩
      obtain hlt | rfl := Nat.lt_succ_iff_lt_or_eq.1 hi
      · exact .inl ⟨i, hlt, hx⟩
      · exact .inr hx

/-! ### Sums of lists -/

theorem xorInto_left_comm (p q r : List Byte) : xorInto p (xorInto q r) = xorInto q (xorInto p r) := by
  induction r generalizing p q with
  | nil => cases p <;> cases q <;> rfl
  | cons z r ih =>
    cases p with
    | nil => cases q <;> rfl
    | cons x p =>
      cases q with
      | nil => rfl
      | cons y q =>
        simp only [xorInto, ih p q]
        rw [← BitVec.xor_assoc, BitVec.xor_comm x y, BitVec.xor_assoc]

theorem xorInto_self_xorInto (p r : List Byte) : xorInto p (xorInto p r) = r := by
  induction r generalizing p with
  | nil => cases p <;> rfl
  | cons z r ih =>
    cases p with
    | nil => rfl
    | cons x p => rw [xorInto, xorInto, ih, ← BitVec.xor_assoc, byte_xor_self, byte_zero_xor]

theorem zeros_succ (n : Nat) : zeros (n + 1) = 0 :: zeros n := rfl

theorem zeros_add (m n : Nat) : zeros (m + n) = zeros m ++ zeros n := List.replicate_add m n 0

theorem xorInto_zeros_left (n : Nat) (r : List Byte) : xorInto (zeros n) r = r := by
  induction n generalizing r with
  | zero => rfl
  | succ n ih =>
    cases r with
    | nil => rfl
    | cons z r => rw [zeros_succ, xorInto, ih, byte_zero_xor]

theorem xorInto_zeros_right (p : List Byte) : xorInto p (zeros p.length) = p := by
  induction p with
  | nil => rfl
  | cons x p ih => rw [List.length_cons, zeros_succ, xorInto, ih, byte_xor_zero]

theorem xorInto_zeros_append (n : Nat) (p r : List Byte) : xorInto (zeros n ++ p) (zeros n ++ r) = zeros n ++ xorInto p r := by
  induction n with
  | zero => rfl
  | succ n ih =>
    simp only [zeros_succ, List.cons_append, xorInto, ih, byte_xor_zero]

/-- The two summands side by side: the first list in front of the second's zeros. -/
theorem xorInto_append_zeros (a b : List Byte) : xorInto (zeros a.length ++ b) (a ++ zeros b.length) = a ++ b := by
  induction a with
  | nil => exact xorInto_zeros_right b
  | cons x a ih => simp only [List.length_cons, zeros_succ, List.cons_append, xorInto, ih, byte_zero_xor]

theorem scale_zero (d : List Byte) : scale 0 d = zeros d.length := by
  unfold scale zeros
  simp only [gfmul_zero, List.map_const']

theorem polymul_zeros_append (n : Nat) (q d : List Byte) : polymul (zeros n ++ q) d = zeros n ++ polymul q d := by
  induction n with
  | zero => rfl
  | succ n ih => rw [zeros_succ, List.cons_append, polymul, scale_zero, xorInto_zeros_left, ih]; rfl

/-! ### A list filled with zeros on the left -/

/-- The polynomial with leading zeros up to `n` coefficients. -/
def padLeft (n : Nat) (p : List Byte) : List Byte := zeros (n - p.length) ++ p

theorem padLeft_length_self (p : List Byte) : padLeft p.length p = p := by
  rw [padLeft, Nat.sub_self]; rfl

theorem padLeft_add {n : Nat} {p : List Byte} (m : Nat) (hn : p.length ≤ n) : padLeft (m + n) p = zeros m ++ padLeft n p := by
  rw [padLeft, padLeft, Nat.add_sub_assoc hn, zeros_add, List.append_assoc]

theorem padLeft_zero_cons {n : Nat} {p : List Byte} (hn : p.length < n) : padLeft n (0 :: p) = padLeft n p := by
  rw [padLeft, padLeft, List.length_cons, show n - p.length = n - (p.length + 1) + 1 by omega, zeros_add, List.append_assoc]
  rfl

/-- Stripping takes away zeros only. -/
theorem padLeft_strip {n : Nat} {p : List Byte} (hn : p.length ≤ n) : padLeft n (strip p) = padLeft n p := by
  induction p with
  | nil => rfl
  | cons c p ih =>
    unfold strip
    split
    · rename_i hc
      rw [hc, padLeft_zero_cons hn, ih (Nat.le_of_lt hn)]
    · rfl

theorem strip_zeros (n : Nat) : strip (zeros n) = [] := by
  induction n with
  | zero => rfl
  | succ n ih => rw [zeros_succ, strip, if_pos rfl, ih]

/-! ### Division by a monic polynomial (R143-R145) -/

/-- A turn of the loop puts a 0 in place of the leading coefficient. -/
theorem xorInto_scale_head {d : List Byte} (hd : d.headD 0 = 1) (h : Byte) (r : List Byte) :
    ∃ r', xorInto (scale h d) (h :: r) = 0 :: r' ∧ r'.length = r.length := by
  cases d with
  | nil => exact absurd hd (by decide)
  | cons x d =>
    obtain rfl : x = 1 := hd
    refine ⟨xorInto (scale h d) r, ?_, xorInto_length _ _⟩
    show (gfmul 1 h ^^^ h) :: xorInto (scale h d) r = _
    rw [one_gfmul, byte_xor_self]

theorem length_pos_of_monic {d : List Byte} (hd : d.headD 0 = 1) : 1 ≤ d.length := by
  cases d with
  | nil => exact absurd hd (by decide)
  | cons => exact Nat.succ_pos _

theorem polymul_zeros (m : Nat) (d : List Byte) : polymul (zeros m) d = zeros (m + (d.length - 1)) := by
  have h := polymul_zeros_append m [] d
  rwa [List.append_nil, polymul, ← zeros_add] at h

/-- The end of the loop: the quotient is 0, and stripping takes away zeros only. -/
theorem strip_spec {d : List Byte} (hd : d.headD 0 = 1) {r : List Byte} {n : Nat} (hn : r.length ≤ n) (hdn : d.length ≤ n + 1) :
    ∃ q, q.length = n + 1 - d.length ∧ padLeft n r = xorInto (padLeft n (strip r)) (polymul q d) := by
  have hpos := length_pos_of_monic hd
  have hlen : n + 1 - d.length + (d.length - 1) = (padLeft n r).length := by
    simp only [padLeft, List.length_append, zeros_length]
    omega
  refine ⟨zeros (n + 1 - d.length), zeros_length _, ?_⟩
  rw [padLeft_strip hn, polymul_zeros, hlen, xorInto_zeros_right]

/-- The loop divides: what it starts from is some quotient times the divisor, plus what it ends with. -/
theorem divideLoop_spec {d : List Byte} (hd : d.headD 0 = 1) (fuel : Nat) (r : List Byte) (hf : r.length ≤ fuel) (n : Nat)
    (hn : r.length ≤ n) (hdn : d.length ≤ n + 1) :
    ∃ q, q.length = n + 1 - d.length ∧
      padLeft n r = xorInto (padLeft n (strip (divideLoop fuel r d))) (polymul q d) := by
  induction fuel generalizing r n with
  | zero => exact strip_spec hd hn hdn
  | succ fuel ih =>
    rw [divideLoop]
    split
    case isFalse => exact strip_spec hd hn hdn
    case isTrue hdr =>
      cases r with
      | nil => exact absurd hdr (Nat.not_le.2 (length_pos_of_monic hd))
      | cons h r =>
        simp only [List.length_cons, List.headD_cons] at hf hn hdr ⊢
        obtain ⟨r', hr', hlen⟩ := xorInto_scale_head hd h r
        have hle := strip_length_le r'
        rw [hr', show strip (0 :: r') = strip r' from if_pos rfl]
        obtain ⟨q, hq, heq⟩ := ih (strip r') (by omega) r.length (by omega) (by omega)
        have hrem := divideLoop_length fuel (strip r') d hd (by omega)
        generalize divideLoop fuel (strip r') d = l at heq hrem ⊢
        have hstrip := strip_length_le l
        obtain ⟨m, rfl⟩ := Nat.exists_eq_add_of_le' hn
        refine ⟨zeros m ++ h :: q, ?_, ?_⟩
        · simp only [List.length_append, zeros_length, List.length_cons]
          omega
        · rw [padLeft_add (n := r.length + 1) (p := h :: r) m (Nat.le_refl _), padLeft_add m (by omega), polymul_zeros_append, xorInto_zeros_append,
            polymul]
          congr 1
          calc padLeft (r.length + 1) (h :: r) = xorInto (scale h d) (xorInto (scale h d) (h :: r)) := by
                rw [xorInto_self_xorInto]; exact padLeft_length_self (h :: r)
            _ = xorInto (scale h d) (0 :: padLeft r.length (strip r')) := by
                rw [hr', padLeft_strip (by omega), ← hlen, padLeft_length_self]
            _ = xorInto (scale h d) (xorInto (padLeft (r.length + 1) (strip l)) (0 :: polymul q d)) := by
                rw [heq, Nat.add_comm, padLeft_add 1 (by omega)]
                rfl
            _ = xorInto (padLeft (r.length + 1) (strip l)) (xorInto (scale h d) (0 :: polymul q d)) :=
                xorInto_left_comm _ _ _

/-- A remainder makes up the dividend with some quotient (R143). -/
theorem polymod_spec {d : List Byte} (hd : d.headD 0 = 1) (a : List Byte) (hda : d.length ≤ a.length + 1) :
    ∃ q, q.length = a.length + 1 - d.length ∧ a = xorInto (padLeft a.length (polymod a d)) (polymul q d) := by
  have h := divideLoop_spec hd a.length a (Nat.le_refl _) a.length (Nat.le_refl _) hda
  rwa [padLeft_length_self] at h

theorem polymod_of_short {a d : List Byte} (h : a.length < d.length) : polymod a d = strip a := by
  unfold polymod
  cases hl : a.length with
  | zero => rfl
  | succ n => rw [divideLoop, if_neg (by omega)]

/-- With both polynomials in their buffers and a monic divisor, no check of POLY.MOD fails. -/
theorem exec_polyMod_of_holds {s : State} {a d : List Byte} (ha : s.Holds .polyA a) (hd : s.Holds .polyB d)
    (ha256 : a.length ≤ 256) (hd1 : 1 ≤ d.length) (hd256 : d.length ≤ 256) (hmonic : d.headD 0 = 1) :
    exec (.polyMod a.length d.length) s = .next (s.withPolyR (polymod a d)).complete := by
  have hlead : s.firstByte .polyB = some 1 := by
    rw [← hmonic, List.headD_eq_getD]
    exact hd 0 hd1
  show execPolyMod a.length d.length s = _
  unfold execPolyMod Config.polyCap
  rw [if_neg (by omega), if_neg (by omega), hlead, State.bytes_of_holds ha, State.bytes_of_holds hd]
  rfl

/-- Settles O18: POLY_R shows the remainder, which the division law characterises. -/
theorem polyModResult : Obligations.PolyModResult := by
  intro s a d ha hd ha256 hd1 hd256 hmonic
  have hlen := polymod_length a d hmonic
  refine ⟨_, polymod a d, exec_polyMod_of_holds ha hd ha256 hd1 hd256 hmonic, rfl, rfl, rfl,
    s.withPolyR_rLen_toNat (by omega), fun k hk => s.read_withPolyR _ k hk, hlen, strip_headD _, polymod_of_short, fun hle => ?_⟩
  obtain ⟨q, hq, heq⟩ := polymod_spec hmonic a (by omega)
  exact ⟨q, by omega, heq⟩

/-! ### The systematic code (42_reed_solomon R163-R165) -/

theorem headD_polymul_cons {d : List Byte} (hd : d.headD 0 = 1) (x : Byte) (q : List Byte) :
    (polymul (x :: q) d).headD 0 = x := by
  cases d with
  | nil => exact absurd hd (by decide)
  | cons y d =>
    obtain rfl : y = 1 := hd
    show gfmul 1 x ^^^ 0 = x
    rw [one_gfmul, byte_xor_zero]

/-- Dividing a multiple of the divisor takes the coefficients of the quotient off one by one. -/
theorem divideLoop_polymul_cons {d : List Byte} (hd : d.headD 0 = 1) (fuel : Nat) (x : Byte) (q : List Byte) :
    divideLoop (fuel + 1) (polymul (x :: q) d) d = divideLoop fuel (strip (polymul q d)) d := by
  have hpos := length_pos_of_monic hd
  have hle : d.length ≤ (polymul (x :: q) d).length := by
    rw [polymul_length _ _ hpos, List.length_cons]
    omega
  rw [divideLoop, if_pos hle, headD_polymul_cons hd, polymul, xorInto_self_xorInto, strip, if_pos rfl]

theorem divideLoop_nil {d : List Byte} (hd : 1 ≤ d.length) (fuel : Nat) : divideLoop fuel [] d = [] := by
  cases fuel with
  | zero => rfl
  | succ fuel => exact if_neg (Nat.not_le.2 hd)

theorem strip_eq_self {p : List Byte} (h : p.headD 0 ≠ 0) : strip p = p := by
  cases p with
  | nil => rfl
  | cons c p => exact if_neg h

/-- Once stripped, a multiple of the divisor divides down to nothing. -/
theorem strip_divideLoop_polymul {d : List Byte} (hd : d.headD 0 = 1) (q : List Byte) (fuel : Nat)
    (hf : (strip (polymul q d)).length ≤ fuel) : strip (divideLoop fuel (strip (polymul q d)) d) = [] := by
  have hpos := length_pos_of_monic hd
  induction q generalizing fuel with
  | nil => rw [polymul, strip_zeros, divideLoop_nil hpos]; rfl
  | cons x q ih =>
    by_cases hx : x = 0
    · have hshift : strip (polymul (x :: q) d) = strip (polymul q d) := by
        rw [hx, show (0 : Byte) :: q = zeros 1 ++ q from rfl, polymul_zeros_append]
        exact if_pos rfl
      rw [hshift] at hf ⊢
      exact ih fuel hf
    · have hself : strip (polymul (x :: q) d) = polymul (x :: q) d :=
        strip_eq_self (by rwa [headD_polymul_cons hd])
      rw [hself] at hf ⊢
      have hlen := polymul_length q d hpos
      have hle := strip_length_le (polymul q d)
      rw [polymul_length _ _ hpos, List.length_cons] at hf
      obtain ⟨f, rfl⟩ := Nat.exists_eq_add_of_le' (show 1 ≤ fuel by omega)
      rw [divideLoop_polymul_cons hd]
      exact ih f (by omega)

theorem polymod_polymul {d : List Byte} (hd : d.headD 0 = 1) (q : List Byte) : polymod (polymul q d) d = [] := by
  have hpos := length_pos_of_monic hd
  cases q with
  | nil =>
    rw [polymod_of_short (by rw [polymul, zeros_length]; omega)]
    exact strip_zeros _
  | cons x q =>
    have hlen : (polymul (x :: q) d).length = (polymul q d).length + 1 := by
      rw [polymul_length _ _ hpos, polymul_length _ _ hpos, List.length_cons]
      omega
    rw [polymod, hlen, divideLoop_polymul_cons hd]
    exact strip_divideLoop_polymul hd q _ (strip_length_le _)

/-- Data followed by its codewords is the multiple of the generator that the division of the padded data has found. -/
theorem append_rsenc {g : List Byte} (hg : g.headD 0 = 1) (data : List Byte) : ∃ q, data ++ rsenc data g = polymul q g := by
  have hlen := rsenc_length data g hg
  have hrem := polymod_length (data ++ zeros (g.length - 1)) g hg
  have ha : (data ++ zeros (g.length - 1)).length = data.length + (g.length - 1) := by
    rw [List.length_append, zeros_length]
  obtain ⟨q, -, hq⟩ := polymod_spec hg (data ++ zeros (g.length - 1)) (by omega)
  refine ⟨q, ?_⟩
  rw [ha, padLeft_add data.length (by omega)] at hq
  calc data ++ rsenc data g = xorInto (zeros data.length ++ rsenc data g) (data ++ zeros (g.length - 1)) := by
        rw [← xorInto_append_zeros, hlen]
    _ = polymul q g := by
        conv_lhs => rw [hq]
        exact xorInto_self_xorInto _ _

/-- Settles O26: a multiple of the generator leaves no remainder. -/
theorem rsCodeIsSystematic : Obligations.RsCodeIsSystematic := by
  intro n data
  have hg := polygen_headD n
  obtain ⟨q, hq⟩ := append_rsenc hg data
  refine ⟨?_, ?_⟩
  · rw [rsenc_length _ _ hg, polygen_length]; rfl
  · rw [hq, polymod_polymul hg]

/-! ### RS.ENC and the failing checks (R164, 41_polynomial section 2, 46_interleaver R265) -/

/-- Settles O24: GEN holds the generator of the degree, so the command divides by it. -/
theorem rsEncResult : Obligations.RsEncResult := by
  intro s data hv hinv hdata h256
  have hexec : exec (.rsEnc data.length) s =
      .next (s.withPolyR (rsenc data (polygen s.rsDeg.toNat))).complete := by
    show execRsEnc data.length s = _
    unfold execRsEnc Config.polyCap
    rw [if_neg (by simp [hv]), if_neg (by omega), State.bytes_of_holds hdata, hinv.bytes_gen hv]
    rfl
  have hlen : (rsenc data (polygen s.rsDeg.toNat)).length = s.rsDeg.toNat := by
    rw [rsenc_length _ _ (polygen_headD _), polygen_length]
    rfl
  have hdeg : s.rsDeg.toNat < 256 := s.rsDeg.isLt
  refine ⟨_, hexec, rfl, rfl, rfl, ?_, fun k hk => s.read_withPolyR _ k hk⟩
  exact (s.withPolyR_rLen_toNat (by omega)).trans hlen

/-- Settles O19: each check by its number, in order; the details fit 24 bits. -/
theorem polyFaults : Obligations.PolyFaults := by
  intro p q s hp hq
  have fault := fun (sub detail : Nat) (hsub : sub < 2 ^ 8) (hdetail : detail < 2 ^ 24) =>
    raise_eq_faultedWith s .length hsub hdetail
  have mul : exec (.polyMul p q) s = execPolyMul p q s := rfl
  have mod : exec (.polyMod p q) s = execPolyMod p q s := rfl
  rw [mul, mod]
  unfold execPolyMul execPolyMod Config.polyCap
  refine ⟨fun h1 => ?_, fun h1 h1' h2 => ?_, fun h1 h1' h2 h2' h3 => ?_, fun h1 => ?_, fun h1 h2 => ?_, fun x h1 h2 h2' hx hne => ?_⟩
  · rw [if_pos h1, fault 1 p (by decide) (by omega)]; rfl
  · rw [if_neg (by omega), if_pos h2, fault 2 q (by decide) (by omega)]; rfl
  · rw [if_neg (by omega), if_neg (by omega), if_pos h3, fault 3 _ (by decide) (by omega)]; rfl
  · rw [if_pos h1, fault 1 p (by decide) (by omega)]; rfl
  · rw [if_neg (by omega), if_pos h2, fault 2 q (by decide) (by omega)]; rfl
  · have hlead : s.firstByte .polyB = some x := hx
    have hbyte : x.toNat < 2 ^ 8 := x.isLt
    rw [if_neg (by omega), if_neg (by omega), hlead]
    dsimp only
    rw [if_pos hne, raise_eq_faultedWith s .domain (by decide) (by omega), BitVec.ofNat_toNat]
    rfl

/-- Settles O25: each check by its number, in order. -/
theorem rsAndIlvFaults : Obligations.RsAndIlvFaults := by
  intro s
  have enc : ∀ n, exec (.rsEnc n) s = execRsEnc n s := fun _ => rfl
  have ilv : ∀ B e T, exec (.ilvBuild B e T) s = execIlvBuild B e T s := fun _ _ _ => rfl
  simp only [enc, ilv]
  unfold execRsEnc execIlvBuild Config.polyCap
  refine ⟨fun n hv => ?_, fun n hn hv h256 => ?_, fun e T => ?_, fun B e T hB hB' he hT hlt => ?_⟩
  · rw [if_pos hv, raise_eq_faultedWith s .notInit (by decide) (by decide)]; rfl
  · rw [if_neg (by simp [hv]), if_pos h256, raise_eq_faultedWith s .length (by decide) (by omega)]; rfl
  · rw [if_pos rfl, raise_eq_faultedWith s .layout (by decide) (by decide)]; rfl
  · have hprod : B * e < 2 ^ 24 := (Nat.mul_lt_mul'' hB' he).trans (by decide)
    rw [if_neg (by omega), if_pos hlt, raise_eq_faultedWith s .layout (by decide) hprod]; rfl

end Sys2Proof.Machine
end

section
/-! PROOFS. Where ILV.BUILD puts every codeword (46_interleaver R260-R266), and the commands that read a byte with no value
(10_state R41, 60_exceptions R310). -/

namespace Sys2Proof.Machine

/-! ### The runs of the split (R260, R262) -/

/-- The codeword block `b` starts at. -/
def Layout.start (l : Layout) (b : Nat) : Nat := if b < l.g1 then b * l.d1 else l.g1 * l.d1 + (b - l.g1) * (l.d1 + 1)

/-- How many data codewords block `b` has. -/
def Layout.len (l : Layout) (b : Nat) : Nat := if b < l.g1 then l.d1 else l.d1 + 1

theorem splitRuns_getElem? (ls : List Nat) (data : List Byte) (b : Nat) (hb : b < ls.length) :
    (splitRuns ls data)[b]? = some ((data.drop (ls.take b).sum).take ls[b]) := by
  induction ls generalizing data b with
  | nil => simp at hb
  | cons n ns ih =>
    cases b with
    | zero => simp [splitRuns]
    | succ b => simp [splitRuns, ih (data.drop n) b (by simpa using hb)]

theorem Layout.lengths_getElem (l : Layout) {b : Nat} (hb : b < l.lengths.length) : l.lengths[b] = l.len b := by
  simp only [Layout.lengths, Layout.len, List.getElem_append, List.length_replicate, List.getElem_replicate]
  split <;> rfl

theorem Layout.lengths_take_sum (l : Layout) {b : Nat} (hb : b ≤ l.lengths.length) : (l.lengths.take b).sum = l.start b := by
  unfold Layout.lengths at hb ⊢
  unfold Layout.start
  simp only [List.length_append, List.length_replicate] at hb
  simp only [List.take_append, List.take_replicate, List.length_replicate, List.sum_append, List.sum_replicate, smul_eq_mul]
  split
  · rw [Nat.min_eq_left (by omega), Nat.sub_eq_zero_of_le (by omega)]; simp
  · rw [Nat.min_eq_right (by omega), Nat.min_eq_left (by omega)]

/-- Block `b` of a layout. -/
theorem splitRuns_layout (l : Layout) (data : List Byte) {b : Nat} (hb : b < l.lengths.length) :
    (splitRuns l.lengths data).getD b [] = (data.drop (l.start b)).take (l.len b) := by
  rw [List.getD_eq_getElem?_getD, splitRuns_getElem? _ _ _ hb, l.lengths_getElem hb, l.lengths_take_sum hb.le]
  rfl

theorem getD_take_drop (data : List Byte) (start : Nat) {i len : Nat} (hi : i < len) :
    ((data.drop start).take len).getD i 0 = data.getD (start + i) 0 := by
  simp [List.getD_eq_getElem?_getD, hi]

/-! ### The columns (R264) -/

/-- A column that no block has run out of. -/
theorem column_full {n : Nat} {blocks : List (List Byte)} (h : ∀ x ∈ blocks, n < x.length) :
    blocks.filterMap (fun x => x[n]?) = blocks.map fun x => x.getD n 0 := by
  rw [← List.filterMap_eq_map]
  refine List.filterMap_congr fun x hx => ?_
  simp [List.getElem?_eq_getElem (h x hx)]

/-- A column that every block has run out of. -/
theorem column_empty {n : Nat} {blocks : List (List Byte)} (h : ∀ x ∈ blocks, x.length ≤ n) :
    blocks.filterMap (fun x => x[n]?) = [] :=
  List.filterMap_eq_nil_iff.2 fun x hx => List.getElem?_eq_none (h x hx)

theorem columns_full_length {n : Nat} {blocks : List (List Byte)} (h : ∀ x ∈ blocks, n ≤ x.length) :
    (columns n blocks).length = n * blocks.length := by
  rw [columns_length, List.map_congr_left (g := fun _ => n) fun x hx => Nat.min_eq_left (h x hx)]
  simp [Nat.mul_comm]

theorem mul_add_lt {i n b B : Nat} (hi : i < n) (hb : b < B) : i * B + b < n * B :=
  calc i * B + b < (i + 1) * B := by rw [Nat.succ_mul]; omega
    _ ≤ n * B := Nat.mul_le_mul_right B hi

/-- Row after row: codeword `i` of block `b` stands `b` places into column `i`. -/
theorem columns_full_getD {n : Nat} {blocks : List (List Byte)} (h : ∀ x ∈ blocks, n ≤ x.length) {i b : Nat} (hi : i < n)
    (hb : b < blocks.length) : (columns n blocks).getD (i * blocks.length + b) 0 = (blocks.getD b []).getD i 0 := by
  induction n with
  | zero => omega
  | succ n ih =>
    have hlen := columns_full_length fun x hx => (Nat.le_succ n).trans (h x hx)
    rw [columns_succ]
    obtain hlt | rfl := Nat.lt_succ_iff_lt_or_eq.1 hi
    · rw [List.getD_append _ _ _ _ (hlen ▸ mul_add_lt hlt hb)]
      exact ih (fun x hx => (Nat.le_succ n).trans (h x hx)) hlt
    · rw [List.getD_append_right _ _ _ _ (by rw [hlen]; omega), hlen, Nat.add_sub_cancel_left, column_full h]
      simp [List.getD_eq_getElem?_getD, List.getElem?_eq_getElem hb]

/-! ### The stream (R266) -/

section Stream

variable {B e T : Nat} {data : List Byte}

/-- The layout in terms of the data's length. -/
theorem layout_eq (hd : data.length = T - B * e) :
    layout B e T = ⟨data.length, data.length / B, B - data.length % B, data.length % B⟩ := by
  rw [hd]; rfl

theorem blocks_lengths (hB : 1 ≤ B) (hd : data.length = T - B * e) :
    (splitRuns (layout B e T).lengths data).map List.length = (layout B e T).lengths :=
  splitRuns_lengths _ data (by rw [layout_lengths_sum B e T hB, hd])

theorem blocks_length (hB : 1 ≤ B) (hd : data.length = T - B * e) :
    (splitRuns (layout B e T).lengths data).length = B := by
  have h := congrArg List.length (blocks_lengths (e := e) (T := T) hB hd)
  rwa [List.length_map, layout_lengths_length B e T hB] at h

/-- Every block has the `d1` codewords of group 1. -/
theorem blocks_full (hB : 1 ≤ B) (hd : data.length = T - B * e) :
    ∀ x ∈ splitRuns (layout B e T).lengths data, (layout B e T).d1 ≤ x.length := by
  intro x hx
  have hmem : x.length ∈ (layout B e T).lengths := by
    rw [← blocks_lengths hB hd]
    exact List.mem_map_of_mem hx
  unfold Layout.lengths at hmem
  rcases List.mem_append.1 hmem with h | h <;> rw [List.eq_of_mem_replicate h]
  exact Nat.le_succ _

theorem block_getD (hB : 1 ≤ B) {b : Nat} (hb : b < B) :
    (splitRuns (layout B e T).lengths data).getD b [] =
      (data.drop ((layout B e T).start b)).take ((layout B e T).len b) :=
  splitRuns_layout _ data (by rwa [layout_lengths_length B e T hB])

theorem block_length (hB : 1 ≤ B) (hd : data.length = T - B * e) {b : Nat} (hb : b < B) :
    ((splitRuns (layout B e T).lengths data).getD b []).length = (layout B e T).len b := by
  have hlen := blocks_length (e := e) (T := T) hB hd
  have h := congrArg (fun l => l.getD b 0) (blocks_lengths (e := e) (T := T) hB hd)
  have hl : b < (layout B e T).lengths.length := by rwa [layout_lengths_length B e T hB]
  simpa [List.getD_eq_getElem?_getD, hlen, hb, List.getElem?_eq_getElem hl, Layout.lengths_getElem] using h

/-- The column of the extra codewords: the blocks of group 1 have run out. -/
theorem lastColumn (hB : 1 ≤ B) (hd : data.length = T - B * e) :
    (splitRuns (layout B e T).lengths data).filterMap (fun x => x[(layout B e T).d1]?) =
      ((splitRuns (layout B e T).lengths data).drop (layout B e T).g1).map fun x => x.getD (layout B e T).d1 0 := by
  have hlen := blocks_length (e := e) (T := T) hB hd
  have hblock := fun b hb => block_length (e := e) (T := T) hB hd (b := b) hb
  generalize splitRuns (layout B e T).lengths data = blocks at hlen hblock ⊢
  have hget : ∀ b (hb : b < blocks.length), (blocks[b]).length = (layout B e T).len b := fun b hb => by
    rw [← List.getD_eq_getElem blocks [] hb]
    exact hblock b (hlen ▸ hb)
  conv_lhs => rw [← List.take_append_drop (layout B e T).g1 blocks]
  rw [List.filterMap_append, column_empty, column_full, List.nil_append]
  · intro x hx
    obtain ⟨k, hk, rfl⟩ := List.getElem_of_mem hx
    rw [List.getElem_drop, hget, Layout.len, if_neg (by omega)]
    exact Nat.lt_succ_self _
  · intro x hx
    obtain ⟨k, hk, rfl⟩ := List.getElem_of_mem hx
    rw [List.length_take] at hk
    rw [List.getElem_take, hget, Layout.len, if_pos (by omega)]

theorem dataColumns_length (hB : 1 ≤ B) (hd : data.length = T - B * e) :
    (columns ((layout B e T).d1 + 1) (splitRuns (layout B e T).lengths data)).length = data.length := by
  rw [columns_succ, List.length_append, columns_full_length (blocks_full hB hd), lastColumn hB hd, blocks_length hB hd,
    List.length_map, List.length_drop, blocks_length hB hd, layout_eq hd]
  have hdiv := Nat.div_add_mod' data.length B
  have hmod := Nat.mod_lt data.length hB
  dsimp only
  omega

theorem buildStream_eq (B e T : Nat) (data : List Byte) :
    buildStream B e T data = columns ((layout B e T).d1 + 1) (splitRuns (layout B e T).lengths data) ++
      columns e ((splitRuns (layout B e T).lengths data).map fun b => rsenc b (polygen e)) := rfl

/-- A codeword every block has. -/
theorem buildStream_data (hB : 1 ≤ B) (hd : data.length = T - B * e) {b i : Nat} (hb : b < B) (hi : i < (layout B e T).d1) :
    (buildStream B e T data).getD (i * B + b) 0 = data.getD ((layout B e T).start b + i) 0 := by
  have hlen := blocks_length (e := e) (T := T) hB hd
  have hcols := columns_full_length (blocks_full hB hd)
  have hget := columns_full_getD (blocks_full hB hd) hi (hlen.symm ▸ hb)
  have hidx : i * B + b < (columns (layout B e T).d1 (splitRuns (layout B e T).lengths data)).length := by
    rw [hcols, hlen]
    exact mul_add_lt hi hb
  rw [hlen, block_getD hB hb, getD_take_drop] at hget
  · rw [buildStream_eq, columns_succ, List.append_assoc, List.getD_append _ _ _ _ hidx]
    exact hget
  · unfold Layout.len
    split <;> omega

/-- The extra codeword of a block of group 2. -/
theorem buildStream_extra (hB : 1 ≤ B) (hd : data.length = T - B * e) {b : Nat} (hb : b < B) (hg : (layout B e T).g1 ≤ b) :
    (buildStream B e T data).getD ((layout B e T).d1 * B + (b - (layout B e T).g1)) 0 =
      data.getD ((layout B e T).start b + (layout B e T).d1) 0 := by
  have hlen := blocks_length (e := e) (T := T) hB hd
  have hcols := columns_full_length (blocks_full hB hd)
  have hblock := block_getD (e := e) (T := T) (data := data) hB hb
  rw [hlen] at hcols
  rw [buildStream_eq, columns_succ, List.append_assoc, List.getD_append_right _ _ _ _ (by rw [hcols]; exact Nat.le_add_right ..),
    hcols, Nat.add_sub_cancel_left, lastColumn hB hd,
    List.getD_append _ _ _ _ (by rw [List.length_map, List.length_drop, hlen]; omega),
    ← getD_take_drop data ((layout B e T).start b) (len := (layout B e T).len b), ← hblock]
  · have hb' : b < (splitRuns (layout B e T).lengths data).length := hlen.symm ▸ hb
    simp [List.getD_eq_getElem?_getD, Nat.add_sub_cancel' hg, hb']
  · rw [Layout.len, if_neg (by omega)]
    exact Nat.lt_succ_self _

/-- An EC codeword. -/
theorem buildStream_ec (hB : 1 ≤ B) (hd : data.length = T - B * e) {b i : Nat} (hb : b < B) (hi : i < e) :
    (buildStream B e T data).getD (data.length + i * B + b) 0 =
      (rsenc ((data.drop ((layout B e T).start b)).take ((layout B e T).len b)) (polygen e)).getD i 0 := by
  have hlen := blocks_length (e := e) (T := T) hB hd
  have hcols := dataColumns_length hB hd
  have hfull : ∀ x ∈ (splitRuns (layout B e T).lengths data).map fun b => rsenc b (polygen e), e ≤ x.length := by
    intro x hx
    obtain ⟨y, -, rfl⟩ := List.mem_map.1 hx
    rw [rsenc_length _ _ (polygen_headD e), polygen_length]
    exact Nat.le_refl e
  have hget := columns_full_getD hfull hi (b := b) (by rwa [List.length_map, hlen])
  rw [List.length_map, hlen] at hget
  rw [buildStream_eq, List.getD_append_right _ _ _ _ (by rw [hcols, Nat.add_assoc]; exact Nat.le_add_right ..), hcols, Nat.add_assoc,
    Nat.add_sub_cancel_left, hget, ← block_getD hB hb]
  have hb' : b < (splitRuns (layout B e T).lengths data).length := hlen.symm ▸ hb
  simp [List.getD_eq_getElem?_getD, hb']

end Stream

/-! ### ILV.BUILD -/

theorem exec_ilvBuild_of_holds {s : State} {B e T : Nat} {data : List Byte} (hB : 1 ≤ B) (hle : B * e ≤ T)
    (hin : s.Holds .cwIn data) (hd : data.length = T - B * e) :
    exec (.ilvBuild B e T) s = .next ((s.withStream (buildStream B e T data)).withRs e (polygen e)).complete := by
  have hbytes : s.bytes .cwIn (layout B e T).D = some data := by
    rw [layout_eq hd]
    exact State.bytes_of_holds hin
  show execIlvBuild B e T s = _
  unfold execIlvBuild
  rw [if_neg (by omega), if_neg (by omega), hbytes]
  rfl

/-- GEN lies below CW_OUT, so a new generator leaves the stream in place. -/
theorem State.read_withStream_withRs (s : State) (out g : List Byte) (n : Nat) {k : Nat} (hk : k < out.length) :
    ((s.withStream out).withRs n g).mem.read (0x3000 + k) = some (out.getD k 0) := by
  rw [State.read_withRs_other _ n g _ (.inr (by omega)), s.read_withStream out k hk]

theorem State.read_withStream_withRs_above (s : State) (out g : List Byte) (n : Nat) {k : Nat} (hk : out.length ≤ k) :
    ((s.withStream out).withRs n g).mem.read (0x3000 + k) = s.mem.read (0x3000 + k) := by
  rw [State.read_withRs_other _ n g _ (.inr (by omega)), s.read_withStream_other out _ (.inr (by omega))]

/-- Settles O27: each codeword by its column of the stream, which has `T` codewords; the RS state is set last. -/
theorem ilvBuildResult : Obligations.IlvBuildResult := by
  intro s B e T data hB hB' he hT hle hin hd
  have hexec := exec_ilvBuild_of_holds hB hle hin hd
  have hlen := buildStream_length B e T data hB hle hd
  have hdata := fun b i hb hi => buildStream_data (e := e) (T := T) (b := b) (i := i) hB hd hb hi
  have hextra := fun b hb hg => buildStream_extra (e := e) (T := T) (b := b) hB hd hb hg
  have hec := fun b i hb hi => buildStream_ec (e := e) (T := T) (b := b) (i := i) hB hd hb hi
  rw [layout_eq hd] at hdata hextra hec
  generalize buildStream B e T data = out at hexec hlen hdata hextra hec
  have stream : ∀ k x, k < T → out.getD k 0 = x →
      ((s.withStream out).withRs e (polygen e)).complete.mem.read (0x3000 + k) = some x := fun k x hk hx => by
    rw [← hx]
    exact s.read_withStream_withRs out _ e (hlen ▸ hk)
  have hdiv := Nat.div_add_mod' data.length B
  have hmod := Nat.mod_lt data.length hB
  have hT' : data.length + B * e = T := by omega
  refine ⟨_, hexec, rfl, rfl, rfl, ?cwLen, fun b i hb hi => ?data, fun b hb hg => ?extra, fun b i hb hi => ?ec,
    fun k hk _ => ?above, (s.withStream out).withRs_rsDeg_toNat (by omega) (polygen e), rfl,
    (s.withStream out).read_withRs e (polygen e)⟩
  case cwLen =>
    show (BitVec.ofNat 12 out.length).toNat = T
    rw [hlen, BitVec.toNat_ofNat, Nat.mod_eq_of_lt hT]
  case data =>
    have hidx := mul_add_lt hi hb
    exact stream _ _ (by omega) (hdata b i hb hi)
  case extra => exact stream _ _ (by omega) (hextra b hb hg)
  case ec =>
    have hidx := mul_add_lt hi hb
    rw [Nat.mul_comm e B] at hidx
    exact stream _ _ (by omega) (hec b i hb hi)
  case above => exact s.read_withStream_withRs_above out _ e (hlen ▸ hk)

/-! ### Bytes with no value (10_state R41) -/

/-- Of two runs of bytes, one with no value stops the command. -/
theorem not_both_some {x y : Option (List Byte)} {a b : List Byte} (h : x = none ∨ y = none) (hx : x = some a)
    (hy : y = some b) : False := by
  obtain rfl | rfl := h
  · cases hx
  · cases hy

theorem State.memRead_byte_uninit {s : State} {addr : Addr} {b : Buffer} {i : Nat} (ht : target addr = .byte b i)
    (hidle : s.busy = false) (hread : s.mem.read (b.base + i) = none) : s.memRead addr = .modelFault .uninitRead := by
  simp [State.memRead, ht, hidle, hread]

/-- Settles O60: past its checks, a command that needs a byte with no value records it; so does the host's read. -/
theorem uninitReadIsRecorded : Obligations.UninitReadIsRecorded := by
  intro s recorded unset
  have run : ∀ {b n}, unset b n → s.bytes b n = none := fun h => (s.bytes_eq_none _ _).2 h
  have runs : ∀ {b c m n}, unset b m ∨ unset c n → s.bytes b m = none ∨ s.bytes c n = none := fun h => h.imp run run
  refine ⟨fun b i a hidle hi ha hread => State.memRead_byte_uninit (target_base hi ha) hidle hread,
    fun p q hp hp' hq hq' hpq h => ?polyMul, fun p q hp hq hq' h => ?polyMod, fun n hv hn h => ?rsEnc,
    fun B e T hB hT h => ?ilvBuild, fun hside hlen h => ?dpZigzag⟩
  case polyMul =>
    show execPolyMul p q s = uninit s
    unfold execPolyMul Config.polyCap
    rw [if_neg (by omega), if_neg (by omega), if_neg (by omega)]
    split
    · exact (not_both_some (runs h) ‹_› ‹_›).elim
    · rfl
  case polyMod =>
    show execPolyMod p q s = uninit s
    unfold execPolyMod Config.polyCap State.firstByte
    rw [if_neg (by omega), if_neg (by omega)]
    obtain hlead | ⟨hlead, hrun⟩ := h
    · rw [hlead]
    · rw [hlead]
      dsimp only
      rw [if_neg (not_not.2 rfl)]
      split
      · exact (not_both_some (runs hrun) ‹_› ‹_›).elim
      · rfl
  case rsEnc =>
    show execRsEnc n s = uninit s
    unfold execRsEnc Config.polyCap
    rw [if_neg (by simp [hv]), if_neg (by omega)]
    split
    · exact (not_both_some (.inl (run h)) ‹_› ‹_›).elim
    · rfl
  case ilvBuild =>
    show execIlvBuild B e T s = uninit s
    unfold execIlvBuild
    rw [if_neg (by omega), if_neg (by omega), show s.bytes .cwIn (layout B e T).D = none from run h]
  case dpZigzag =>
    show execDpZigzag s = uninit s
    unfold execDpZigzag withMatrix State.side
    rw [if_neg hside]
    dsimp only
    rw [if_neg (by omega), run h]

end Sys2Proof.Machine
end

section
/-! PROOFS. The commands on one cell (43_bit_matrix R184-R187): what they leave in the cell and in every other one. -/

namespace Sys2Proof.Machine

/-! ### The commands on one cell -/

theorem withCell_eq {s : State} {r c : Nat} (hr : r < s.side) (hc : c < s.side) (k : Result) : withCell s r c k = k := by
  obtain ⟨h, -⟩ | ⟨-, h, -⟩ | ⟨-, -, h⟩ := withCell_cases s r c k
  · omega
  · omega
  · exact h

theorem State.side_lt (s : State) : s.side < 256 := s.matSize.isLt

/-- Distinct cells of a matrix have distinct keys. -/
theorem cellKey_ne {r c r' c' : Nat} (hc : c < 256) (hc' : c' < 256) (hne : r' ≠ r ∨ c' ≠ c) : cellKey r' c' ≠ cellKey r c :=
  fun h => by
    have := cellKey_inj hc' hc h
    omega

/-- Settles O30: a placement reserves, a module write keeps the flag. -/
theorem matSetResult : Obligations.MatSetResult := by
  intro r c v sr s hr hc
  have hc256 : c < 256 := Nat.lt_trans hc s.side_lt
  refine ⟨_, withCell_eq hr hc _, rfl, rfl, rfl, ?_, fun r' c' hc' hne => ?_⟩
  · cases sr
    · exact Grid.cell_setModule_same s.grid r c v
    · exact Grid.cell_place_same s.grid r c v
  · have hkey := cellKey_ne hc256 hc' hne
    cases sr
    · exact Grid.cell_setModule_other s.grid v hkey
    · exact Grid.cell_place_other s.grid v hkey

theorem exec_matXor {s : State} {r c : Nat} (hr : r < s.side) (hc : c < s.side) (v : Bool) :
    exec (.matXor r c v) s = .next (s.withGrid (s.grid.setModule r c ((s.cell r c).dark ^^ v))).complete :=
  withCell_eq hr hc _

/-- Settles O31: the second flip undoes the first in the one cell either of them writes. -/
theorem matXorResult : Obligations.MatXorResult := by
  intro r c v s hr hc
  have hc256 : c < 256 := Nat.lt_trans hc s.side_lt
  have other : ∀ (g : Grid) (x : Bool) (r' c' : Nat), c' < 256 → (r' ≠ r ∨ c' ≠ c) → (g.setModule r c x).cell r' c' = g.cell r' c' :=
    fun g x r' c' hc' hne => Grid.cell_setModule_other g x (cellKey_ne hc256 hc' hne)
  have again := exec_matXor (s := (s.withGrid (s.grid.setModule r c ((s.cell r c).dark ^^ v))).complete) hr hc v
  refine ⟨_, _, exec_matXor hr hc v, rfl, rfl, rfl, Grid.cell_setModule_same .., other _ _, again,    fun r' c' hc' => ?_⟩
  by_cases hsame : r' = r ∧ c' = c
  · obtain ⟨rfl, rfl⟩ := hsame
    simp [State.cell]
  · have hne : r' ≠ r ∨ c' ≠ c := by omega
    exact (other _ _ r' c' hc' hne).trans (other _ _ r' c' hc' hne)

theorem Cell.value_eq (x : Cell) : x.value = BitVec.ofNat 32 (2 * x.reserved.toNat + x.dark.toNat) := by
  obtain ⟨dark, reserved⟩ := x
  revert dark reserved
  decide

/-- Settles O32: the two bits of the cell as a number. -/
theorem matGetResult : Obligations.MatGetResult := by
  intro r c s hr hc
  have hexec : exec (.matGet r c) s = .next (s.withResult (s.cell r c).value).complete := withCell_eq hr hc _
  rw [hexec, Cell.value_eq]
  rfl

end Sys2Proof.Machine
end

section
/-! PROOFS. The structural placers (44_structural_placer): which placements each structure holds, by the distance from a pattern's
centre or by the lines and areas of its rule, and what that leaves in every cell. -/

namespace Sys2Proof.Machine

/-! ### Cells after placements -/

/-- The placements in a list at a cell are the one value given, if any. -/
abbrev DrawsAt (ps : List Placement) (r c : Nat) (x : Option Bool) : Prop :=
  ∀ w, (⟨r, c, w⟩ : Placement) ∈ ps ↔ x = some w

/-- A cell after placements that agree on it. -/
theorem Grid.cell_placeAll {g : Grid} {ps : List Placement} {r c : Nat} {x : Option Bool} (hc : c < 256)
    (hcol : ∀ p ∈ ps, p.col < 256) (h : DrawsAt ps r c x) :
    (g.placeAll ps).cell r c = x.elim (g.cell r c) fun w => ⟨w, true⟩ := by
  have named : ∀ p ∈ ps, cellKey p.row p.col = cellKey r c → x = some p.dark := fun p hp hkey => by
    obtain ⟨hr, hc'⟩ := cellKey_inj (hcol p hp) hc hkey
    rw [← h, ← hr, ← hc']
    exact hp
  cases x with
  | none => exact Grid.cell_placeAll_other g ps r c fun p hp hkey => absurd (named p hp hkey.symm) nofun
  | some w =>
    exact Grid.cell_placeAll_same g ps r c w ⟨_, (h w).2 rfl, rfl⟩ fun p hp hkey =>
      (Option.some.inj (named p hp hkey)).symm

/-- A placer on a symbol of its version completes with its placements. -/
theorem exec_placer_symbol {i : Instr} {cells : Nat → List Placement} (hi : placerCells i = some cells) {s : State} {v : Nat}
    (hv : 1 ≤ v) (hs : s.side = symbolSize v) :
    exec i s = .next (s.withGrid (s.grid.placeAll (cells v))).complete := by
  rw [exec_placer hi, placeStructure, withVersion_eq s _ v hv hs, finish_eq]
  rfl

/-- Settles O44: each placer begins with the geometry check. -/
theorem geometryFaults : Obligations.GeometryFaults := by
  intro i s hi
  obtain ⟨cells, hcells⟩ := placerCells_isSome hi
  rw [exec_placer hcells]
  have hside : s.matSize.toNat < 2 ^ 24 := s.side_lt.trans (by decide)
  unfold placeStructure withVersion withMatrix State.side
  refine ⟨fun h0 => ?_, fun h0 hbad => ?_⟩
  · rw [if_pos h0, raise_eq_faultedWith s .range (by decide) (by decide)]
    rfl
  · rw [if_neg h0]
    dsimp only
    rw [if_pos hbad, raise_eq_faultedWith s .geometry (by decide) hside, BitVec.ofNat_toNat]
    rfl

/-! ### Squares around a centre -/

/-- The ring of a finder pattern that is dark (R201). -/
def finderRing (d : Nat) : Bool := d ≤ 1 || d == 3

theorem mem_finderOffsets (x : Int) : x ∈ finderOffsets ↔ -1 ≤ x ∧ x ≤ 7 := by
  simp only [finderOffsets, List.mem_cons, List.not_mem_nil, or_false]
  omega

theorem mem_alignOffsets (x : Int) : x ∈ alignOffsets ↔ -2 ≤ x ∧ x ≤ 2 := by
  simp only [alignOffsets, List.mem_cons, List.not_mem_nil, or_false]
  omega

theorem finderDark_eq_ring : ∀ r ∈ finderOffsets, ∀ c ∈ finderOffsets,
    finderDark r c = finderRing (max (r - 3).natAbs (c - 3).natAbs) := by
  decide

theorem gap_eq (a b : Nat) : gap a b = ((a : Int) - b).natAbs := by
  unfold gap
  omega

/-- A finder pattern with its separator, by rings around its centre (R201). -/
theorem mem_finderAt (s R C : Nat) (p : Placement) :
    p ∈ finderAt s ((R : Int) - 3) ((C : Int) - 3) ↔
      p.row < s ∧ p.col < s ∧ ring p.row p.col R C ≤ 4 ∧ p.dark = finderRing (ring p.row p.col R C) := by
  unfold finderAt ring
  simp only [gap_eq]
  constructor
  · intro hp
    obtain ⟨r, hr, hp⟩ := List.mem_flatMap.1 hp
    split at hp
    · cases hp
    · obtain ⟨c, hc, hp⟩ := List.mem_flatMap.1 hp
      split at hp
      · cases hp
      · obtain rfl := List.mem_singleton.1 hp
        have hr' := (mem_finderOffsets r).1 hr
        have hc' := (mem_finderOffsets c).1 hc
        have hrow : (((R : Int) - 3 + r).toNat - (R : Int)).natAbs = (r - 3).natAbs := by omega
        have hcol : (((C : Int) - 3 + c).toNat - (C : Int)).natAbs = (c - 3).natAbs := by omega
        simp only [hrow, hcol, finderDark_eq_ring r hr c hc]
        exact ⟨by omega, by omega, max_le (by omega) (by omega), trivial⟩
  · rintro ⟨hrow, hcol, hring, hdark⟩
    have hr : (p.row : Int) - R + 3 ∈ finderOffsets := (mem_finderOffsets _).2 (by omega)
    have hc : (p.col : Int) - C + 3 ∈ finderOffsets := (mem_finderOffsets _).2 (by omega)
    refine List.mem_flatMap.2 ⟨_, hr, ?_⟩
    rw [if_neg (by omega)]
    refine List.mem_flatMap.2 ⟨_, hc, ?_⟩
    rw [if_neg (by omega), finderDark_eq_ring _ hr _ hc]
    obtain ⟨row, col, dark⟩ := p
    simp only [List.mem_singleton, Placement.mk.injEq] at hdark ⊢
    refine ⟨by omega, by omega, ?_⟩
    rw [hdark]
    congr 2 <;> omega

/-- An alignment pattern, by rings around its centre (R207). -/
theorem mem_alignCells {R C : Nat} (hR : 2 ≤ R) (hC : 2 ≤ C) (p : Placement) :
    p ∈ alignCells R C ↔ ring p.row p.col R C ≤ 2 ∧ p.dark = (ring p.row p.col R C != 1) := by
  have hdark : ∀ r ∈ alignOffsets, ∀ c ∈ alignOffsets,
      (r == -2 || r == 2 || c == -2 || c == 2 || (r == 0 && c == 0)) = (max r.natAbs c.natAbs != 1) := by
    decide
  unfold alignCells ring
  simp only [gap_eq]
  constructor
  · intro hp
    obtain ⟨r, hr, hp⟩ := List.mem_flatMap.1 hp
    obtain ⟨c, hc, rfl⟩ := List.mem_map.1 hp
    have hr' := (mem_alignOffsets r).1 hr
    have hc' := (mem_alignOffsets c).1 hc
    have hrow : (((R : Int) + r).toNat - (R : Int)).natAbs = r.natAbs := by omega
    have hcol : (((C : Int) + c).toNat - (C : Int)).natAbs = c.natAbs := by omega
    simp only [hrow, hcol, hdark r hr c hc]
    exact ⟨max_le (by omega) (by omega), trivial⟩
  · rintro ⟨hring, hd⟩
    have hr : (p.row : Int) - R ∈ alignOffsets := (mem_alignOffsets _).2 (by omega)
    have hc : (p.col : Int) - C ∈ alignOffsets := (mem_alignOffsets _).2 (by omega)
    refine List.mem_flatMap.2 ⟨_, hr, List.mem_map.2 ⟨_, hc, ?_⟩⟩
    rw [hdark _ hr _ hc, ← hd]
    obtain ⟨row, col, dark⟩ := p
    simp only [Placement.mk.injEq, and_true]
    omega

theorem ring_le_iff {r c R C d : Nat} : ring r c R C ≤ d ↔ R ≤ r + d ∧ r ≤ R + d ∧ C ≤ c + d ∧ c ≤ C + d := by
  unfold ring gap
  omega

/-! ### SP.FINDER (R201, R202) -/

theorem mem_finderCells {n : Nat} (hn : 21 ≤ n) (p : Placement) :
    p ∈ finderCells n ↔ p.row < n ∧ p.col < n ∧
      ((ring p.row p.col 3 3 ≤ 4 ∧ p.dark = finderRing (ring p.row p.col 3 3)) ∨
       (ring p.row p.col (n - 4) 3 ≤ 4 ∧ p.dark = finderRing (ring p.row p.col (n - 4) 3)) ∨
       (ring p.row p.col 3 (n - 4) ≤ 4 ∧ p.dark = finderRing (ring p.row p.col 3 (n - 4)))) := by
  have hcells : finderCells n = finderAt n ((3 : Nat) - 3) ((3 : Nat) - 3) ++ finderAt n ((n - 4 : Nat) - 3) ((3 : Nat) - 3) ++
      finderAt n ((3 : Nat) - 3) ((n - 4 : Nat) - 3) := by
    have hcast : ((n - 4 : Nat) : Int) - 3 = n - 7 := by omega
    rw [hcast]
    rfl
  rw [hcells, List.mem_append, List.mem_append, mem_finderAt, mem_finderAt, mem_finderAt]
  constructor
  · rintro ((⟨hr, hc, h⟩ | ⟨hr, hc, h⟩) | ⟨hr, hc, h⟩)
    · exact ⟨hr, hc, .inl h⟩
    · exact ⟨hr, hc, .inr (.inl h)⟩
    · exact ⟨hr, hc, .inr (.inr h)⟩
  · rintro ⟨hr, hc, h | h | h⟩
    · exact .inl (.inl ⟨hr, hc, h⟩)
    · exact .inl (.inr ⟨hr, hc, h⟩)
    · exact .inr ⟨hr, hc, h⟩

/-- A completed placer, by what its structure draws at each cell of the symbol. -/
theorem placer_result {i : Instr} {cells : Nat → List Placement} (hi : placerCells i = some cells) {s : State} {v : Nat}
    (hv : 1 ≤ v) (hv' : v ≤ 40) (hs : s.matSize.toNat = 4 * v + 17) {f : Nat → Nat → Option Bool}
    (hf : ∀ r c, r < 4 * v + 17 → c < 4 * v + 17 → DrawsAt (cells v) r c (f r c)) :
    ∃ t, exec i s = .next t ∧ t.done = true ∧ t.busy = false ∧ t.err = s.err ∧
      ∀ r c, r < 4 * v + 17 → c < 4 * v + 17 → t.cell r c = (f r c).elim (s.cell r c) fun w => ⟨w, true⟩ := by
  have hcol : ∀ p ∈ cells v, p.col < 256 := fun p hp => by
    have := (placerCells_inSide hi hv (by unfold symbolSize; omega) p hp).2
    unfold symbolSize at this
    omega
  exact ⟨_, exec_placer_symbol hi hv hs, rfl, rfl, rfl, fun r c hr hc => Grid.cell_placeAll (by omega) hcol (hf r c hr hc)⟩

/-- What the finder patterns draw at a cell. -/
def finderAtCell (n r c : Nat) : Option Bool :=
  if ring r c 3 3 ≤ 4 then some (finderRing (ring r c 3 3))
  else if ring r c (n - 4) 3 ≤ 4 then some (finderRing (ring r c (n - 4) 3))
  else if ring r c 3 (n - 4) ≤ 4 then some (finderRing (ring r c 3 (n - 4)))
  else none

/-- At most one of the three patterns reaches a cell, because a symbol has 21 rows and columns or more. -/
theorem finderCells_drawsAt {n r c : Nat} (hn : 21 ≤ n) (hr : r < n) (hc : c < n) :
    DrawsAt (finderCells n) r c (finderAtCell n r c) := by
  intro w
  have h12 : ring r c 3 3 ≤ 4 → ¬ring r c (n - 4) 3 ≤ 4 := by rw [ring_le_iff, ring_le_iff]; omega
  have h13 : ring r c 3 3 ≤ 4 → ¬ring r c 3 (n - 4) ≤ 4 := by rw [ring_le_iff, ring_le_iff]; omega
  have h23 : ring r c (n - 4) 3 ≤ 4 → ¬ring r c 3 (n - 4) ≤ 4 := by rw [ring_le_iff, ring_le_iff]; omega
  rw [mem_finderCells hn]
  unfold finderAtCell
  split_ifs with h1 h2 h3
  · simp [hr, hc, h1, h12 h1, h13 h1, eq_comm]
  · simp [hr, hc, h1, h2, h23 h2, eq_comm]
  · simp [hr, hc, h1, h2, h3, eq_comm]
  · simp [h1, h2, h3]

/-- Settles O36: the patterns draw rings around three centres. -/
theorem spFinderResult : Obligations.SpFinderResult := by
  intro s v hv hv' hs n pattern
  obtain ⟨t, hexec, hdone, hbusy, herr, hcell⟩ :=
    placer_result (i := .spFinder) rfl hv hv' hs (f := finderAtCell n) fun r c hr hc =>
      finderCells_drawsAt (n := n) (show 21 ≤ 4 * v + 17 by omega) hr hc
  refine ⟨t, hexec, hdone, hbusy, herr, fun r c hr hc => (hcell r c hr hc).trans ?_⟩
  unfold finderAtCell
  split_ifs <;> rfl

/-! ### SP.TIMING (R203, R204) -/

/-- What the timing lines draw at a cell. -/
def timingAtCell (n r c : Nat) : Option Bool :=
  if (c = 6 ∧ 8 ≤ r ∧ r ≤ n - 9) ∨ (r = 6 ∧ 8 ≤ c ∧ c ≤ n - 9) then some ((r + c) % 2 == 0) else none

theorem timingCells_drawsAt {n : Nat} (hn : 21 ≤ n) (r c : Nat) : DrawsAt (timingCells n) r c (timingAtCell n r c) := by
  intro w
  have hparity : ∀ i, ((i + 6) % 2 == 0) = (i % 2 == 0) := fun i => by rw [show (i + 6) % 2 = i % 2 by omega]
  unfold timingAtCell timingCells
  simp only [List.mem_flatMap, List.mem_range, List.mem_cons, List.not_mem_nil, or_false, Placement.mk.injEq]
  constructor
  · rintro ⟨k, hk, ⟨rfl, rfl, rfl⟩ | ⟨rfl, rfl, rfl⟩⟩
    · rw [if_pos (by omega), hparity]
    · rw [if_pos (by omega), Nat.add_comm 6, hparity]
  · intro h
    split at h
    · rename_i hline
      obtain rfl := Option.some.inj h
      obtain ⟨rfl, hr⟩ | ⟨rfl, hc⟩ := hline
      · obtain ⟨k, rfl⟩ := Nat.exists_eq_add_of_le' hr.1
        exact ⟨k, by omega, .inl ⟨rfl, rfl, hparity _⟩⟩
      · obtain ⟨k, rfl⟩ := Nat.exists_eq_add_of_le' hc.1
        exact ⟨k, by omega, .inr ⟨rfl, rfl, by rw [Nat.add_comm 6, hparity]⟩⟩
    · cases h

/-- Settles O37: the two lines as the range of the rule. -/
theorem spTimingResult : Obligations.SpTimingResult := by
  intro s v hv hv' hs n
  obtain ⟨t, hexec, hdone, hbusy, herr, hcell⟩ :=
    placer_result (i := .spTiming) rfl hv hv' hs (f := timingAtCell n) fun r c _ _ =>
      timingCells_drawsAt (n := n) (show 21 ≤ 4 * v + 17 by omega) r c
  refine ⟨t, hexec, hdone, hbusy, herr, fun r c hr hc => (hcell r c hr hc).trans ?_⟩
  unfold timingAtCell
  split_ifs <;> rfl

/-! ### SP.FORMAT (R209, R210) -/

/-- What the format areas draw at a cell. -/
def formatAtCell (n r c : Nat) : Option Bool :=
  if (c = 8 ∧ (r ≤ 5 ∨ r = 7 ∨ r = 8 ∨ n - 7 ≤ r)) ∨ (r = 8 ∧ (c ≤ 5 ∨ c = 7 ∨ n - 8 ≤ c)) then some false else none

theorem mem_formatCells {n : Nat} (p : Placement) : p ∈ formatCells n ↔
    ∃ i, i < 15 ∧ (((p.row, p.col) = formatCell1 n i ∨ (p.row, p.col) = formatCell2 n i) ∧ p.dark = false) := by
  obtain ⟨row, col, dark⟩ := p
  unfold formatCells
  simp only [List.mem_flatMap, List.mem_range, List.mem_cons, List.not_mem_nil, or_false, Placement.mk.injEq, Prod.ext_iff]
  refine exists_congr fun i => and_congr_right fun _ => ?_
  tauto

/-- The two areas as lines: the cells of F1 in column 8, those of F2 in row 8. -/
theorem formatCells_drawsAt {n r c : Nat} (hn : 21 ≤ n) (hr : r < n) (hc : c < n) :
    DrawsAt (formatCells n) r c (formatAtCell n r c) := by
  have hF1 : (∃ i, i < 15 ∧ (r, c) = formatCell1 n i) ↔ c = 8 ∧ (r ≤ 5 ∨ r = 7 ∨ r = 8 ∨ n - 7 ≤ r) := by
    unfold formatCell1
    constructor
    · rintro ⟨i, hi, h⟩
      split_ifs at h <;> simp only [Prod.mk.injEq] at h <;> omega
    · rintro ⟨rfl, h | rfl | rfl | h⟩
      · exact ⟨r, by omega, by rw [if_pos (by omega)]⟩
      · exact ⟨6, by omega, rfl⟩
      · exact ⟨7, by omega, rfl⟩
      · exact ⟨r + 15 - n, by omega, by rw [if_neg (by omega), if_neg (by omega), Prod.mk.injEq]; omega⟩
  have hF2 : (∃ i, i < 15 ∧ (r, c) = formatCell2 n i) ↔ r = 8 ∧ (c ≤ 5 ∨ c = 7 ∨ n - 8 ≤ c) := by
    unfold formatCell2
    constructor
    · rintro ⟨i, hi, h⟩
      split_ifs at h <;> simp only [Prod.mk.injEq] at h <;> omega
    · rintro ⟨rfl, h | rfl | h⟩
      · exact ⟨14 - c, by omega, by rw [if_neg (by omega), if_neg (by omega), Prod.mk.injEq]; omega⟩
      · exact ⟨8, by omega, rfl⟩
      · exact ⟨n - 1 - c, by omega, by rw [if_pos (by omega), Prod.mk.injEq]; omega⟩
  intro w
  rw [mem_formatCells]
  unfold formatAtCell
  constructor
  · rintro ⟨i, hi, h | h, rfl⟩
    · rw [if_pos (.inl (hF1.1 ⟨i, hi, h⟩))]
    · rw [if_pos (.inr (hF2.1 ⟨i, hi, h⟩))]
  · intro h
    split at h
    · obtain rfl := Option.some.inj h
      rename_i hline
      obtain ⟨i, hi, h⟩ | ⟨i, hi, h⟩ := hline.imp hF1.2 hF2.2
      · exact ⟨i, hi, .inl h, rfl⟩
      · exact ⟨i, hi, .inr h, rfl⟩
    · cases h

/-- Settles O39: the lines of the two areas. -/
theorem spFormatResult : Obligations.SpFormatResult := by
  intro s v hv hv' hs n
  obtain ⟨t, hexec, hdone, hbusy, herr, hcell⟩ :=
    placer_result (i := .spFormat) rfl hv hv' hs (f := formatAtCell n) fun r c hr hc =>
      formatCells_drawsAt (n := n) (show 21 ≤ 4 * v + 17 by omega) hr hc
  refine ⟨t, hexec, hdone, hbusy, herr, fun r c hr hc => (hcell r c hr hc).trans ?_⟩
  unfold formatAtCell
  split_ifs <;> rfl

/-! ### SP.VERSION (R211, R212) and SP.DARK (R214, R215) -/

/-- What the version areas draw at a cell. -/
def versionAtCell (v n r c : Nat) : Option Bool :=
  if 7 ≤ v ∧ ((r ≤ 5 ∧ n - 11 ≤ c ∧ c ≤ n - 9) ∨ (c ≤ 5 ∧ n - 11 ≤ r ∧ r ≤ n - 9)) then some false else none

theorem versionCells_drawsAt (v : Nat) {n : Nat} (hn : 21 ≤ n) (r c : Nat) :
    DrawsAt (versionCells v n) r c (versionAtCell v n r c) := by
  intro w
  unfold versionAtCell versionCells
  by_cases hv : 7 ≤ v
  · rw [if_pos hv]
    simp only [hv, true_and, versionCell1, List.mem_flatMap, List.mem_range, List.mem_cons, List.not_mem_nil, or_false,
      Placement.mk.injEq]
    constructor
    · rintro ⟨i, hi, ⟨hr, hc, rfl⟩ | ⟨hr, hc, rfl⟩⟩
      · rw [if_pos (by omega)]
      · rw [if_pos (by omega)]
    · intro h
      split at h
      · rename_i harea
        obtain rfl := Option.some.inj h
        obtain hup | hleft := harea
        · exact ⟨3 * r + (c + 11 - n), by omega, .inl ⟨by omega, by omega, rfl⟩⟩
        · exact ⟨3 * c + (r + 11 - n), by omega, .inr ⟨by omega, by omega, rfl⟩⟩
      · cases h
  · simp [hv]

/-- Settles O40: the two areas of 6 by 3 cells, from version 7 on. -/
theorem spVersionResult : Obligations.SpVersionResult := by
  intro s v hv hv' hs n
  obtain ⟨t, hexec, hdone, hbusy, herr, hcell⟩ :=
    placer_result (i := .spVersion) rfl hv hv' hs (f := versionAtCell v n) fun r c _ _ =>
      versionCells_drawsAt v (n := n) (show 21 ≤ 4 * v + 17 by omega) r c
  refine ⟨t, hexec, hdone, hbusy, herr, fun r c hr hc => (hcell r c hr hc).trans ?_⟩
  unfold versionAtCell
  split_ifs <;> rfl

/-- What the dark module draws at a cell. -/
def darkAtCell (n r c : Nat) : Option Bool := if r = n - 8 ∧ c = 8 then some true else none

theorem darkCells_drawsAt (n r c : Nat) : DrawsAt (darkCells n) r c (darkAtCell n r c) := by
  intro w
  unfold darkAtCell darkCells
  split_ifs with h
  · simp [h, eq_comm]
  · simp [← and_assoc, h]

/-- Settles O41: one cell. -/
theorem spDarkResult : Obligations.SpDarkResult := by
  intro s v hv hv' hs
  obtain ⟨t, hexec, hdone, hbusy, herr, hcell⟩ :=
    placer_result (i := .spDark) rfl hv hv' hs (f := darkAtCell (4 * v + 17)) fun r c _ _ => darkCells_drawsAt _ r c
  refine ⟨t, hexec, hdone, hbusy, herr, fun r c hr hc => (hcell r c hr hc).trans ?_⟩
  unfold darkAtCell
  rw [show 4 * v + 17 - 8 = 4 * v + 9 by omega]
  split_ifs <;> rfl

end Sys2Proof.Machine
end

section
/-! PROOFS. The alignment coordinates and patterns (44_structural_placer R205-R208, R213): the coordinates by their formula, how far
apart they stand, and what the patterns around their pairs draw. -/

namespace Sys2Proof.Machine

/-! ### The coordinates (R205) -/

/-- How far apart the coordinates of a version stand, from the last one down. -/
def acoordStep (v : Nat) : Nat :=
  if v = 32 then 26 else 2 * ((4 * v + 4 + (2 * (v / 7 + 2) - 2) - 1) / (2 * (v / 7 + 2) - 2))

theorem acoords_eq {v : Nat} (hv : v ≠ 1) :
    acoords v = 6 :: ((List.range (v / 7 + 1)).map fun i => 4 * v + 10 - i * acoordStep v).reverse := by
  have hside : symbolSize v - 7 = 4 * v + 10 := by unfold symbolSize; omega
  have hstep : alignStep (symbolSize v) (v / 7 + 2) = acoordStep v := by
    have h13 : symbolSize v - 13 = 4 * v + 4 := by unfold symbolSize; omega
    have h145 : symbolSize v = 145 ↔ v = 32 := by unfold symbolSize; omega
    simp only [alignStep, acoordStep, h13, h145]
  unfold acoords
  rw [if_neg hv]
  dsimp only
  rw [hside, hstep]
  rfl

theorem acoords_length {v : Nat} (hv : v ≠ 1) : (acoords v).length = v / 7 + 2 := by
  simp [acoords_eq hv]

theorem acoords_getD_zero {v : Nat} (hv : v ≠ 1) : (acoords v).getD 0 0 = 6 := by
  rw [acoords_eq hv]; rfl

theorem acoords_getD_succ {v k : Nat} (hv : v ≠ 1) (hk : k < v / 7 + 1) :
    (acoords v).getD (k + 1) 0 = 4 * v + 10 - (v / 7 - k) * acoordStep v := by
  rw [acoords_eq hv, List.getD_cons_succ, List.getD_eq_getElem _ _ (by simpa using hk)]
  simp

theorem acoords_getD_of_le {v k : Nat} (h : (acoords v).length ≤ k) : (acoords v).getD k 0 = 0 := by
  rw [List.getD_eq_getElem?_getD, List.getElem?_eq_none h]; rfl

/-! ### SP.ACOORD (R213) -/

theorem State.withAlign_alignN_toNat (s : State) {co : List Nat} (h : co.length ≤ 7) :
    (s.withAlign co).alignN.toNat = co.length := by
  rw [State.withAlign_alignN, BitVec.toNat_ofNat]
  omega

theorem State.withAlign_alignC_toNat (s : State) {co : List Nat} (k : Fin 7) (h : co.getD k.val 0 < 256) :
    ((s.withAlign co).alignC[k]).toNat = co.getD k.val 0 := by
  have hget : (s.withAlign co).alignC[k] = BitVec.ofNat 8 (co.getD k.val 0) := by
    simp [State.withAlign]
  rw [hget, BitVec.toNat_ofNat, Nat.mod_eq_of_lt h]

/-- A coordinate, or the 0 of an unused register, fits 8 bits. -/
theorem acoords_getD_lt {v : Nat} (hv : v < 41) (k : Nat) : (acoords v).getD k 0 < 256 := by
  by_cases hk : k < (acoords v).length
  · have := acoords_getD_range hv hk
    omega
  · rw [acoords_getD_of_le (not_lt.1 hk)]
    decide

/-- Settles O35: the coordinates by their formula, each in its register. -/
theorem spAcoordResult : Obligations.SpAcoordResult := by
  intro n s hn N stride
  constructor
  · intro hbad
    have hexec : exec (.spAcoord n) s = raise s .geometry 2 n := if_pos hbad
    rw [hexec, raise_eq_faultedWith s .geometry (by decide) (by omega)]
    rfl
  · intro h1 h40
    have hexec : exec (.spAcoord n) s = .next (s.withAlign (acoords n)).complete := if_neg (show ¬(n < 1 ∨ 40 < n) by omega)
    have hN : (acoords n).length = N := by
      by_cases h : n = 1
      · subst h; rfl
      · rw [acoords_length h]; exact (if_neg h).symm
    refine ⟨_, hexec, rfl, rfl, rfl, ?_, fun k => ?_⟩
    · rw [← hN]
      exact s.withAlign_alignN_toNat (acoords_length_le n (by omega))
    · refine (s.withAlign_alignC_toNat k (acoords_getD_lt (by omega) _)).trans ?_
      split
      · exact acoords_getD_of_le (hN ▸ ‹_›)
      · rename_i hk
        have hne : n ≠ 1 := by
          rintro rfl
          exact hk (Nat.zero_le _)
        have hN' : N = n / 7 + 2 := if_neg hne
        have hstride : stride = acoordStep n := by
          show (if n = 32 then 26 else 2 * ((4 * n + 4 + (2 * N - 2) - 1) / (2 * N - 2))) = _
          rw [hN']
          rfl
        split
        · rename_i h0
          rw [h0, acoords_getD_zero hne]
        · rename_i h0
          obtain ⟨j, hj⟩ := Nat.exists_eq_succ_of_ne_zero h0
          rw [hj, acoords_getD_succ hne (by omega), hstride, hN', show n / 7 + 2 - 1 - j.succ = n / 7 - j by omega]

/-! ### The alignment patterns (R206-R208) -/

/-- A pair of coordinates that carries a pattern: all but the three on the finder patterns (R206). -/
abbrev Centre (v i j : Nat) : Prop :=
  i < (acoords v).length ∧ j < (acoords v).length ∧ ¬(i = 0 ∧ j = 0) ∧ ¬(i = 0 ∧ j = (acoords v).length - 1) ∧
    ¬(i = (acoords v).length - 1 ∧ j = 0)

/-- The coordinates rise by at least 12. -/
theorem acoords_spaced : ∀ v, v < 41 → 1 ≤ v → ∀ j, j < (acoords v).length → ∀ i, i < j →
    (acoords v).getD i 0 + 12 ≤ (acoords v).getD j 0 := by
  decide +kernel

/-- The coordinates are even. -/
theorem acoords_even : ∀ v, v < 41 → ∀ i, i < (acoords v).length → (acoords v).getD i 0 % 2 = 0 := by
  decide +kernel

theorem acoords_near {v i j : Nat} (h1 : 1 ≤ v) (hv : v < 41) (hi : i < (acoords v).length) (hj : j < (acoords v).length)
    (hle : (acoords v).getD i 0 ≤ (acoords v).getD j 0 + 4) (hge : (acoords v).getD j 0 ≤ (acoords v).getD i 0 + 4) : i = j := by
  obtain h | h | h := Nat.lt_trichotomy i j
  · have := acoords_spaced v hv h1 j hj i h
    omega
  · exact h
  · have := acoords_spaced v hv h1 i hi j h
    omega

theorem mem_apositions {v : Nat} {q : Nat × Nat} :
    q ∈ apositions v ↔ ∃ i j, Centre v i j ∧ q = ((acoords v).getD i 0, (acoords v).getD j 0) := by
  unfold apositions
  simp only [List.mem_flatMap, List.mem_range]
  constructor
  · rintro ⟨i, hi, j, hj, hq⟩
    split at hq
    · cases hq
    · exact ⟨i, j, by omega, List.mem_singleton.1 hq⟩
  · rintro ⟨i, j, hc, rfl⟩
    refine ⟨i, hc.1, j, hc.2.1, ?_⟩
    rw [if_neg (by omega)]
    exact List.mem_singleton.2 rfl

/-- The patterns of a version, by rings around their centres. -/
theorem mem_alignAll {v : Nat} (hv : v < 41) (p : Placement) : p ∈ alignAll v ↔
    ∃ i j, Centre v i j ∧ ring p.row p.col ((acoords v).getD i 0) ((acoords v).getD j 0) ≤ 2 ∧
      p.dark = (ring p.row p.col ((acoords v).getD i 0) ((acoords v).getD j 0) != 1) := by
  unfold alignAll
  simp only [List.mem_flatMap, mem_apositions]
  have h2 : ∀ {i}, i < (acoords v).length → 2 ≤ (acoords v).getD i 0 := fun hi => by
    have := acoords_getD_range hv hi
    omega
  constructor
  · rintro ⟨_, ⟨i, j, hc, rfl⟩, hp⟩
    exact ⟨i, j, hc, (mem_alignCells (h2 hc.1) (h2 hc.2.1) p).1 hp⟩
  · rintro ⟨i, j, hc, hp⟩
    exact ⟨_, ⟨i, j, hc, rfl⟩, (mem_alignCells (h2 hc.1) (h2 hc.2.1) p).2 hp⟩

/-- No cell lies in two patterns. -/
theorem centre_unique {v i j i' j' r c : Nat} (h1 : 1 ≤ v) (hv : v < 41) (h : Centre v i j) (h' : Centre v i' j')
    (hr : ring r c ((acoords v).getD i 0) ((acoords v).getD j 0) ≤ 2)
    (hr' : ring r c ((acoords v).getD i' 0) ((acoords v).getD j' 0) ≤ 2) : i = i' ∧ j = j' := by
  rw [ring_le_iff] at hr hr'
  exact ⟨acoords_near h1 hv h.1 h'.1 (by omega) (by omega), acoords_near h1 hv h.2.1 h'.2.1 (by omega) (by omega)⟩

/-- What the alignment patterns draw at a cell. -/
def alignAtCell (v r c : Nat) : Option Bool :=
  ((apositions v).find? fun q => ring r c q.1 q.2 ≤ 2).map fun q => ring r c q.1 q.2 != 1

theorem alignAtCell_centre {v i j r c : Nat} (h1 : 1 ≤ v) (hv : v < 41) (h : Centre v i j)
    (hr : ring r c ((acoords v).getD i 0) ((acoords v).getD j 0) ≤ 2) :
    alignAtCell v r c = some (ring r c ((acoords v).getD i 0) ((acoords v).getD j 0) != 1) := by
  unfold alignAtCell
  cases hfind : (apositions v).find? fun q => ring r c q.1 q.2 ≤ 2 with
  | none => exact absurd (List.find?_eq_none.1 hfind _ (mem_apositions.2 ⟨i, j, h, rfl⟩)) (by simpa using hr)
  | some q =>
    obtain ⟨i', j', h', rfl⟩ := mem_apositions.1 (List.mem_of_find?_eq_some hfind)
    have hr' := List.find?_some hfind
    obtain ⟨rfl, rfl⟩ := centre_unique h1 hv h h' hr (by simpa using hr')
    rfl

theorem alignAtCell_none {v r c : Nat}
    (h : ∀ i j, Centre v i j → 2 < ring r c ((acoords v).getD i 0) ((acoords v).getD j 0)) : alignAtCell v r c = none := by
  unfold alignAtCell
  rw [Option.map_eq_none_iff, List.find?_eq_none]
  intro q hq
  obtain ⟨i, j, hc, rfl⟩ := mem_apositions.1 hq
  have := h i j hc
  simp only [decide_eq_true_eq]
  omega

theorem alignAll_drawsAt {v : Nat} (h1 : 1 ≤ v) (hv : v < 41) (r c : Nat) : DrawsAt (alignAll v) r c (alignAtCell v r c) := by
  intro w
  rw [mem_alignAll hv]
  constructor
  · rintro ⟨i, j, hc, hring, hw⟩
    rw [show w = _ from hw]
    exact alignAtCell_centre h1 hv hc hring
  · intro hw
    by_contra hno
    have hnone := alignAtCell_none (v := v) (r := r) (c := c) fun i j hc => by
      by_contra hle
      have heq := (alignAtCell_centre h1 hv hc (not_lt.1 hle)).symm.trans hw
      exact hno ⟨i, j, hc, not_lt.1 hle, (Option.some.inj heq).symm⟩
    rw [hnone] at hw
    cases hw

/-- Settles O38: each cell by the one pattern that reaches it. -/
theorem spAlignResult : Obligations.SpAlignResult := by
  intro s v hv hv' hs co m centre
  have hv41 : v < 41 := Nat.lt_succ_of_le hv'
  obtain ⟨t, hexec, hdone, hbusy, herr, hcell⟩ :=
    placer_result (i := .spAlign) rfl hv hv' hs (f := alignAtCell v) fun r c _ _ => alignAll_drawsAt hv hv41 r c
  refine ⟨t, hexec, hdone, hbusy, herr, fun r c hr hc => ⟨fun i j hcentre hring => ?_, fun hfar => ?_⟩⟩
  · rw [hcell r c hr hc, alignAtCell_centre hv hv41 hcentre hring]
    rfl
  · rw [hcell r c hr hc, alignAtCell_none hfar]
    rfl

end Sys2Proof.Machine
end

section
/-! PROOFS. SP.PLACE as a run of commands, and that the order of the placers does not matter (44_structural_placer R216, R217): where
two structures reach the same cell, they draw it alike. -/

namespace Sys2Proof.Machine

/-! ### Placers one after another (R216) -/

/-- The placements of a command in a symbol of a version; none for a command that is no placer. -/
def placementsOf (v : Nat) (i : Instr) : List Placement := ((placerCells i).map fun cells => cells v).getD []

/-- The placers in the order of R216. -/
def placers : List Instr := [.spFinder, .spTiming, .spAlign, .spFormat, .spVersion, .spDark]

theorem placers_isSome : ∀ i ∈ placers, ∃ cells, placerCells i = some cells := by
  intro i hi
  simp only [placers, List.mem_cons, List.not_mem_nil, or_false] at hi
  exact placerCells_isSome hi

theorem placements_placers (v : Nat) : placers.flatMap (placementsOf v) = structureCells v := by
  simp [placers, placementsOf, placerCells, structureCells]

/-- A run of placers places all their structures, from a state in which a command has just completed. -/
theorem runCommands_placers {v : Nat} (hv : 1 ≤ v) (order : List Instr) (horder : ∀ i ∈ order, ∃ cells, placerCells i = some cells)
    (u : State) (hu : u.complete = u) (hs : u.side = symbolSize v) :
    runCommands order u = some (u.withGrid (u.grid.placeAll (order.flatMap (placementsOf v)))) := by
  induction order generalizing u with
  | nil => rfl
  | cons i is ih =>
    obtain ⟨cells, hcells⟩ := horder i List.mem_cons_self
    have hexec : exec i u = .next (u.withGrid (u.grid.placeAll (placementsOf v i))) := by
      rw [exec_placer_symbol hcells hv hs, placementsOf, hcells]
      show Host.Outcome.next (u.complete.withGrid _) = _
      rw [hu]
      rfl
    have hdone : (u.withGrid (u.grid.placeAll (placementsOf v i))).complete = u.withGrid (u.grid.placeAll (placementsOf v i)) := by
      show u.complete.withGrid (u.grid.placeAll (placementsOf v i)) = _
      rw [hu]
    rw [runCommands, hexec, List.flatMap_cons, Grid.placeAll_append]
    exact ih (fun j hj => horder j (List.mem_cons_of_mem _ hj)) _ hdone hs

/-- MAT.INIT of a symbol's side, then placers. -/
theorem runCommands_matInit_placers {v : Nat} (hv : 1 ≤ v) (hv' : v ≤ 40) (order : List Instr)
    (horder : ∀ i ∈ order, ∃ cells, placerCells i = some cells) (s : State) :
    runCommands (.matInit (4 * v + 17) :: order) s =
      some ((s.withNewMatrix (symbolSize v)).complete.withGrid (Grid.placeAll [] (order.flatMap (placementsOf v)))) := by
  rw [runCommands, exec_matInit_of_legal (by omega) (by omega)]
  exact runCommands_placers hv order horder _ rfl (s.withNewMatrix_matSize_toNat (by omega))

theorem exec_spPlace_of_legal {n : Nat} (h1 : 1 ≤ n) (h40 : n ≤ 40) (s : State) :
    exec (.spPlace n) s = .next ((s.withNewMatrix (symbolSize n)).complete.withGrid (Grid.placeAll [] (structureCells n))) := by
  show execSpPlace n s = _
  unfold execSpPlace Config.vMax
  rw [if_neg (by omega)]
  generalize structureCells n = ps
  rfl

/-- Settles O42: both ways place the whole structure on an empty matrix. -/
theorem spPlaceResult : Obligations.SpPlaceResult := by
  intro n s hn
  refine ⟨fun hbad => ?_, fun h1 h40 => ?_⟩
  · have hexec : exec (.spPlace n) s = raise s .geometry 2 n := if_pos hbad
    rw [hexec, raise_eq_faultedWith s .geometry (by decide) (by omega)]
    rfl
  · refine ⟨_, exec_spPlace_of_legal h1 h40 s, rfl, rfl, s.withNewMatrix_matSize_toNat (by unfold symbolSize; omega), ?_⟩
    rw [← placements_placers]
    exact runCommands_matInit_placers h1 h40 placers placers_isSome s

/-! ### Structures that agree where they meet (R217) -/

/-- The two lists draw alike every cell that both of them name. -/
def Agree (ps qs : List Placement) : Prop := ∀ p ∈ ps, ∀ q ∈ qs, p.row = q.row → p.col = q.col → p.dark = q.dark

theorem Agree.symm {ps qs : List Placement} (h : Agree ps qs) : Agree qs ps :=
  fun q hq p hp hr hc => (h p hp q hq hr.symm hc.symm).symm

/-- What a list draws at each cell of the symbol is one value, so it agrees with itself. -/
theorem Agree.of_drawsAt {n : Nat} {ps : List Placement} {f : Nat → Nat → Option Bool} (hin : InSide n ps)
    (h : ∀ r c, r < n → c < n → DrawsAt ps r c (f r c)) : Agree ps ps := by
  intro p hp q hq hr hc
  obtain ⟨hrow, hcol⟩ := hin p hp
  have hdraw := h p.row p.col hrow hcol
  have hp' := (hdraw p.dark).1 hp
  have hq' := (hdraw q.dark).1 (by rw [hr, hc]; exact hq)
  exact Option.some.inj (hp'.symm.trans hq')

theorem Agree.append_left {ps qs rs : List Placement} (hp : Agree ps rs) (hq : Agree qs rs) : Agree (ps ++ qs) rs :=
  fun p h => (List.mem_append.1 h).elim (hp p) (hq p)

/-- A structure added to a list that agrees with itself, where it agrees with the list. -/
theorem Agree.add {ps qs : List Placement} (hps : Agree ps ps) (hqs : Agree qs qs) (h : Agree ps qs) : Agree (ps ++ qs) (ps ++ qs) :=
  .append_left (Agree.append_left hps h.symm).symm (Agree.append_left h hqs).symm

/-- Lists of the same placements, which agree with themselves, leave the same cells. -/
theorem Grid.cell_placeAll_congr {g : Grid} {ps qs : List Placement} (hmem : ∀ p, p ∈ ps ↔ p ∈ qs) (hagree : Agree ps ps)
    (hcol : ∀ p ∈ ps, p.col < 256) (r c : Nat) (hc : c < 256) : (g.placeAll ps).cell r c = (g.placeAll qs).cell r c := by
  by_cases h : ∃ w, (⟨r, c, w⟩ : Placement) ∈ ps
  · obtain ⟨w, hw⟩ := h
    have draws : DrawsAt ps r c (some w) := fun w' =>
      ⟨fun hw' => congrArg some (hagree _ hw _ hw' rfl rfl), fun heq => Option.some.inj heq ▸ hw⟩
    rw [Grid.cell_placeAll hc hcol draws,
      Grid.cell_placeAll hc (fun p hp => hcol p ((hmem p).2 hp)) fun w' => (hmem _).symm.trans (draws w')]
  · have draws : DrawsAt ps r c none := fun w => ⟨fun hw => absurd ⟨w, hw⟩ h, nofun⟩
    rw [Grid.cell_placeAll hc hcol draws,
      Grid.cell_placeAll hc (fun p hp => hcol p ((hmem p).2 hp)) fun w' => (hmem _).symm.trans (draws w')]

/-! ### Where the structures lie -/

theorem finder_area {n : Nat} (hn : 21 ≤ n) {p : Placement} (hp : p ∈ finderCells n) :
    (p.row ≤ 7 ∧ p.col ≤ 7) ∨ (n - 8 ≤ p.row ∧ p.col ≤ 7) ∨ (p.row ≤ 7 ∧ n - 8 ≤ p.col) := by
  obtain ⟨-, -, ⟨h, -⟩ | ⟨h, -⟩ | ⟨h, -⟩⟩ := (mem_finderCells hn p).1 hp <;> rw [ring_le_iff] at h <;> omega

theorem timing_area {n : Nat} (hn : 21 ≤ n) {p : Placement} (hp : p ∈ timingCells n) :
    ((p.col = 6 ∧ 8 ≤ p.row ∧ p.row ≤ n - 9) ∨ (p.row = 6 ∧ 8 ≤ p.col ∧ p.col ≤ n - 9)) ∧
      p.dark = ((p.row + p.col) % 2 == 0) := by
  have h := (timingCells_drawsAt hn p.row p.col p.dark).1 hp
  unfold timingAtCell at h
  split at h
  · exact ⟨‹_›, (Option.some.inj h).symm⟩
  · cases h

theorem format_area {n : Nat} (hn : 21 ≤ n) {p : Placement} (hp : p ∈ formatCells n) :
    ((p.col = 8 ∧ (p.row ≤ 5 ∨ p.row = 7 ∨ p.row = 8 ∨ n - 7 ≤ p.row)) ∨
      (p.row = 8 ∧ (p.col ≤ 5 ∨ p.col = 7 ∨ n - 8 ≤ p.col))) ∧ p.dark = false := by
  obtain ⟨hr, hc⟩ := formatCells_inSide n hn p hp
  have h := (formatCells_drawsAt hn hr hc p.dark).1 hp
  unfold formatAtCell at h
  split at h
  · exact ⟨‹_›, (Option.some.inj h).symm⟩
  · cases h

theorem version_area {v n : Nat} (hn : 21 ≤ n) {p : Placement} (hp : p ∈ versionCells v n) :
    ((p.row ≤ 5 ∧ n - 11 ≤ p.col ∧ p.col ≤ n - 9) ∨ (p.col ≤ 5 ∧ n - 11 ≤ p.row ∧ p.row ≤ n - 9)) ∧ p.dark = false := by
  have h := (versionCells_drawsAt v hn p.row p.col p.dark).1 hp
  unfold versionAtCell at h
  split at h
  · rename_i harea
    exact ⟨harea.2, (Option.some.inj h).symm⟩
  · cases h

theorem dark_area {n : Nat} {p : Placement} (hp : p ∈ darkCells n) : p.row = n - 8 ∧ p.col = 8 := by
  obtain rfl := List.mem_singleton.1 hp
  exact ⟨rfl, rfl⟩

/-- A coordinate is even, and either the first or last one or 12 away from it. -/
theorem acoords_position {v i : Nat} (h1 : 1 ≤ v) (hv : v < 41) (hi : i < (acoords v).length) :
    (acoords v).getD i 0 % 2 = 0 ∧
    ((i = 0 ∧ (acoords v).getD i 0 = 6) ∨ 18 ≤ (acoords v).getD i 0) ∧
    ((i = (acoords v).length - 1 ∧ (acoords v).getD i 0 = 4 * v + 10) ∨ (acoords v).getD i 0 + 12 ≤ 4 * v + 10) := by
  have hne : v ≠ 1 := by
    rintro rfl
    exact absurd hi (Nat.not_lt_zero i)
  have hlen := acoords_length hne
  have hfirst := acoords_getD_zero hne
  have hlast : (acoords v).getD ((acoords v).length - 1) 0 = 4 * v + 10 := by
    rw [hlen, show v / 7 + 2 - 1 = v / 7 + 1 by omega, acoords_getD_succ hne (by omega), Nat.sub_self, Nat.zero_mul]
    rfl
  refine ⟨acoords_even v hv i hi, ?_, ?_⟩
  · by_cases h0 : i = 0
    · exact .inl ⟨h0, h0 ▸ hfirst⟩
    · have := acoords_spaced v hv h1 i hi 0 (by omega)
      omega
  · by_cases hl : i = (acoords v).length - 1
    · exact .inl ⟨hl, hl ▸ hlast⟩
    · have := acoords_spaced v hv h1 ((acoords v).length - 1) (by omega) i (by omega)
      omega

/-- The centre of an alignment pattern and its distance from the finder patterns. -/
theorem align_area {v : Nat} (h1 : 1 ≤ v) (hv : v < 41) {p : Placement} (hp : p ∈ alignAll v) :
    ∃ R C, (R % 2 = 0 ∧ C % 2 = 0) ∧ (R = 6 ∨ 18 ≤ R) ∧ (C = 6 ∨ 18 ≤ C) ∧ (R = 4 * v + 10 ∨ R + 12 ≤ 4 * v + 10) ∧
      (C = 4 * v + 10 ∨ C + 12 ≤ 4 * v + 10) ∧ (R = 6 → 18 ≤ C ∧ C + 12 ≤ 4 * v + 10) ∧ (C = 6 → 18 ≤ R ∧ R + 12 ≤ 4 * v + 10) ∧
      ring p.row p.col R C ≤ 2 ∧ p.dark = (ring p.row p.col R C != 1) := by
  obtain ⟨i, j, hc, hring, hdark⟩ := (mem_alignAll hv p).1 hp
  obtain ⟨hi0, hi1, hi2⟩ := acoords_position h1 hv hc.1
  obtain ⟨hj0, hj1, hj2⟩ := acoords_position h1 hv hc.2.1
  exact ⟨_, _, ⟨hi0, hj0⟩, by omega, by omega, by omega, by omega, by omega, by omega, hring, hdark⟩

/-! ### The order of the placers (R217) -/

theorem finder_agree_timing {n : Nat} (hn : 21 ≤ n) : Agree (finderCells n) (timingCells n) := by
  intro p hp q hq hr hc
  have hp := finder_area hn hp
  have hq := (timing_area hn hq).1
  omega

theorem finder_agree_align {v : Nat} (h1 : 1 ≤ v) (hv : v < 41) : Agree (finderCells (symbolSize v)) (alignAll v) := by
  intro p hp q hq hr hc
  have hn : symbolSize v = 4 * v + 17 := rfl
  have hp := finder_area (by omega) hp
  obtain ⟨R, C, -, hR, hC, hR', hC', hR6, hC6, hring, -⟩ := align_area h1 hv hq
  rw [ring_le_iff] at hring
  omega

/-- An alignment pattern on a timing line has its centre on it, so it continues the line's alternation (R208). -/
theorem timing_agree_align {v : Nat} (h1 : 1 ≤ v) (hv : v < 41) : Agree (timingCells (symbolSize v)) (alignAll v) := by
  intro p hp q hq hr hc
  have hn : symbolSize v = 4 * v + 17 := rfl
  obtain ⟨hline, hpdark⟩ := timing_area (by omega) hp
  obtain ⟨R, C, ⟨hR2, hC2⟩, hR, hC, -, -, -, -, hring, hqdark⟩ := align_area h1 hv hq
  rw [ring_le_iff] at hring
  have hparity : (p.row + p.col) % 2 = 0 ↔ ring q.row q.col R C ≠ 1 := by
    unfold ring gap
    omega
  rw [hpdark, hqdark, Bool.eq_iff_iff, beq_iff_eq, bne_iff_ne, hparity]

theorem format_agree {v : Nat} (h1 : 1 ≤ v) (hv : v < 41) :
    Agree (finderCells (symbolSize v) ++ timingCells (symbolSize v) ++ alignAll v) (formatCells (symbolSize v)) := by
  have hn : symbolSize v = 4 * v + 17 := rfl
  refine .append_left (.append_left ?_ ?_) ?_ <;> intro p hp q hq hr hc <;> have hq := (format_area (by omega) hq).1
  · have hp := finder_area (by omega) hp
    omega
  · have hp := (timing_area (by omega) hp).1
    omega
  · obtain ⟨R, C, -, hR, hC, hR', hC', hR6, hC6, hring, -⟩ := align_area h1 hv hp
    rw [ring_le_iff] at hring
    omega

theorem version_agree {v : Nat} (h1 : 1 ≤ v) (hv : v < 41) :
    Agree (finderCells (symbolSize v) ++ timingCells (symbolSize v) ++ alignAll v ++ formatCells (symbolSize v))
      (versionCells v (symbolSize v)) := by
  have hn : symbolSize v = 4 * v + 17 := rfl
  refine .append_left (.append_left (.append_left ?_ ?_) ?_) ?_ <;> intro p hp q hq hr hc <;>
    obtain ⟨hq, hlight⟩ := version_area (by omega) hq
  · have hp := finder_area (by omega) hp
    omega
  · have hp := (timing_area (by omega) hp).1
    omega
  · obtain ⟨R, C, -, hR, hC, hR', hC', hR6, hC6, hring, -⟩ := align_area h1 hv hp
    rw [ring_le_iff] at hring
    omega
  · rw [(format_area (by omega) hp).2, hlight]

theorem dark_agree {v : Nat} (h1 : 1 ≤ v) (hv : v < 41) :
    Agree (finderCells (symbolSize v) ++ timingCells (symbolSize v) ++ alignAll v ++ formatCells (symbolSize v) ++
      versionCells v (symbolSize v)) (darkCells (symbolSize v)) := by
  have hn : symbolSize v = 4 * v + 17 := rfl
  refine .append_left (.append_left (.append_left (.append_left ?_ ?_) ?_) ?_) ?_ <;> intro p hp q hq hr hc <;>
    have hq := dark_area hq
  · have hp := finder_area (by omega) hp
    omega
  · have hp := (timing_area (by omega) hp).1
    omega
  · obtain ⟨R, C, -, hR, hC, hR', hC', hR6, hC6, hring, -⟩ := align_area h1 hv hp
    rw [ring_le_iff] at hring
    omega
  · have hp := (format_area (by omega) hp).1
    omega
  · have hp := (version_area (by omega) hp).1
    omega

theorem structureCells_agree {v : Nat} (h1 : 1 ≤ v) (hv : v < 41) : Agree (structureCells v) (structureCells v) := by
  have hn : 21 ≤ symbolSize v := by unfold symbolSize; omega
  have hfinder : Agree (finderCells (symbolSize v)) _ := .of_drawsAt (finderCells_inSide _) fun _ _ => finderCells_drawsAt hn
  have htiming : Agree (timingCells (symbolSize v)) _ := .of_drawsAt (timingCells_inSide _) fun r c _ _ => timingCells_drawsAt hn r c
  have halign : Agree (alignAll v) _ := .of_drawsAt (alignAll_inSide v hv) fun r c _ _ => alignAll_drawsAt h1 hv r c
  have hformat : Agree (formatCells (symbolSize v)) _ := .of_drawsAt (formatCells_inSide _ hn) fun _ _ => formatCells_drawsAt hn
  have hversion : Agree (versionCells v (symbolSize v)) _ :=
    .of_drawsAt (versionCells_inSide v _ hn) fun r c _ _ => versionCells_drawsAt v hn r c
  have hdark : Agree (darkCells (symbolSize v)) _ := .of_drawsAt (darkCells_inSide _ hn) fun r c _ _ => darkCells_drawsAt _ r c
  exact ((((hfinder.add htiming (finder_agree_timing hn)).add halign
    (.append_left (finder_agree_align h1 hv) (timing_agree_align h1 hv))).add hformat (format_agree h1 hv)).add hversion
    (version_agree h1 hv)).add hdark (dark_agree h1 hv)

/-- Settles O43: the placements are the same in any order, and the structures agree where they meet. -/
theorem structureOrderIrrelevant : Obligations.StructureOrderIrrelevant := by
  intro v s order h1 h40 hperm
  have hmem (p : Placement) : p ∈ structureCells v ↔ p ∈ order.flatMap (placementsOf v) := by
    rw [← placements_placers]
    exact (hperm.symm.flatMap_right _).mem_iff
  have hcol : ∀ p ∈ structureCells v, p.col < 256 := fun p hp => by
    have : p.col < 4 * v + 17 := (structureCells_inSide v h1 (by omega) p hp).2
    omega
  have hagree := structureCells_agree h1 (show v < 41 by omega)
  have hplace := exec_spPlace_of_legal h1 h40 s
  have hrun := runCommands_matInit_placers h1 h40 order (fun i hi => placers_isSome i (hperm.mem_iff.1 hi)) s
  generalize structureCells v = ps at *
  exact ⟨_, _, hplace, hrun, rfl, fun r c _ hc => (Grid.cell_placeAll_congr hmem hagree hcol r c (by omega)).symm⟩

end Sys2Proof.Machine
end

section
/-! PROOFS. DP.ZIGZAG: the walk takes the strips in turn, its places grow along it, and the bits of the stream land in its cells
(45_data_placer R240-R244). -/

namespace Sys2Proof.Machine

/-! ### The strips of the walk (R241) -/

/-- How many columns a column lies from the right edge, column 6 left out where it is skipped. -/
def fromRight (n c : Nat) : Nat := n - 1 - (if n % 2 = 1 ∧ 7 ≤ n ∧ c < 6 then c + 1 else c)

/-- The column at which the walk begins strip `k`, before it steps over column 6; 0 when there is no such strip. -/
def stripStart (n k : Nat) : Nat := if n % 2 = 1 ∧ 7 ≤ n ∧ n - 1 - 2 * k < 6 then n - 2 - 2 * k else n - 1 - 2 * k

/-- The right column of the strip that begins at `col`. -/
def stripRight (col : Nat) : Nat := if col = 6 then 5 else col

theorem fromRight_cases (n c : Nat) : ((n % 2 = 1 ∧ 7 ≤ n ∧ c < 6) ∧ fromRight n c = n - 1 - (c + 1)) ∨
    (¬(n % 2 = 1 ∧ 7 ≤ n ∧ c < 6) ∧ fromRight n c = n - 1 - c) := by
  unfold fromRight
  split
  · exact .inl ⟨‹_›, rfl⟩
  · exact .inr ⟨‹_›, rfl⟩

theorem stripStart_cases (n k : Nat) : ((n % 2 = 1 ∧ 7 ≤ n ∧ n - 1 - 2 * k < 6) ∧ stripStart n k = n - 2 - 2 * k) ∨
    (¬(n % 2 = 1 ∧ 7 ≤ n ∧ n - 1 - 2 * k < 6) ∧ stripStart n k = n - 1 - 2 * k) := by
  unfold stripStart
  split
  · exact .inl ⟨‹_›, rfl⟩
  · exact .inr ⟨‹_›, rfl⟩

theorem stripRight_cases (col : Nat) : (col = 6 ∧ stripRight col = 5) ∨ (col ≠ 6 ∧ stripRight col = col) := by
  unfold stripRight
  split
  · exact .inl ⟨‹_›, rfl⟩
  · exact .inr ⟨‹_›, rfl⟩

/-- The rows of strip `k` in the walk's order. -/
def stripRows (n k : Nat) : List Nat := if k % 2 == 0 then (List.range n).reverse else List.range n

/-- The positions of strip `k`, whose right column is `c`. -/
def stripCells (n k c : Nat) : List (Nat × Nat) := (stripRows n k).flatMap fun r => [(r, c), (r, c - 1)]

/-- The columns R244 names. -/
def Covered (n c : Nat) : Prop := c < n ∧ (n % 2 = 1 → 7 ≤ n → c ≠ 6) ∧ (n % 2 = 1 → n ≤ 5 → c ≠ 0)

theorem walk_eq_walkFrom (n : Nat) : walk n = walkFrom n n (stripStart n 0) (0 % 2 == 0) := by
  have : stripStart n 0 = n - 1 := by have := stripStart_cases n 0; omega
  rw [this]
  rfl

theorem stripRight_sub_two (n k : Nat) : stripRight (stripStart n k) - 2 = stripStart n (k + 1) := by
  have := stripStart_cases n k
  have := stripStart_cases n (k + 1)
  have := stripRight_cases (stripStart n k)
  omega

theorem walkFrom_of_zero {n k : Nat} (fuel : Nat) (up : Bool) (h : stripStart n k = 0) : walkFrom n fuel (stripStart n k) up = [] := by
  rw [h]
  cases fuel <;> rfl

theorem walkFrom_succ {n k : Nat} (fuel : Nat) (h : stripStart n k ≠ 0) :
    walkFrom n (fuel + 1) (stripStart n k) (k % 2 == 0) =
      stripCells n k (stripRight (stripStart n k)) ++ walkFrom n fuel (stripStart n (k + 1)) ((k + 1) % 2 == 0) := by
  have hup : (!(k % 2 == 0)) = ((k + 1) % 2 == 0) := by
    rw [Bool.eq_iff_iff, Bool.not_eq_true', beq_eq_false_iff_ne, beq_iff_eq]
    omega
  rw [← stripRight_sub_two, ← hup]
  exact if_neg h

theorem mem_stripRows {n k r : Nat} : r ∈ stripRows n k ↔ r < n := by
  unfold stripRows
  split <;> simp

theorem mem_stripCells {n k c : Nat} {p : Nat × Nat} : p ∈ stripCells n k c ↔ p.1 < n ∧ (p.2 = c ∨ p.2 = c - 1) := by
  simp only [stripCells, List.mem_flatMap, mem_stripRows, List.mem_cons, List.not_mem_nil, or_false]
  constructor
  · rintro ⟨r, hr, rfl | rfl⟩
    · exact ⟨hr, .inl rfl⟩
    · exact ⟨hr, .inr rfl⟩
  · rintro ⟨hr, hc | hc⟩
    · exact ⟨p.1, hr, .inl (Prod.ext rfl hc)⟩
    · exact ⟨p.1, hr, .inr (Prod.ext rfl hc)⟩

/-- A strip consists of the two covered columns of its distance from the right edge. -/
theorem stripRight_columns {n k c : Nat} (h : stripStart n k ≠ 0) :
    (c = stripRight (stripStart n k) ∨ c = stripRight (stripStart n k) - 1) ↔ Covered n c ∧ fromRight n c / 2 = k := by
  have := stripStart_cases n k
  have := stripRight_cases (stripStart n k)
  have := fromRight_cases n c
  unfold Covered
  omega

theorem fromRight_stripRight {n k : Nat} (h : stripStart n k ≠ 0) : fromRight n (stripRight (stripStart n k)) = 2 * k := by
  have := stripStart_cases n k
  have := stripRight_cases (stripStart n k)
  have := fromRight_cases n (stripRight (stripStart n k))
  omega

theorem fromRight_stripRight_sub_one {n k : Nat} (h : stripStart n k ≠ 0) :
    fromRight n (stripRight (stripStart n k) - 1) = 2 * k + 1 := by
  have := stripStart_cases n k
  have := stripRight_cases (stripStart n k)
  have := fromRight_cases n (stripRight (stripStart n k) - 1)
  omega

theorem not_covered_of_zero {n k c : Nat} (h : stripStart n k = 0) : ¬(Covered n c ∧ k ≤ fromRight n c / 2) := by
  have := stripStart_cases n k
  have := fromRight_cases n c
  unfold Covered
  omega

/-- From strip `k` on the walk visits the covered columns of that strip and of those left of it. -/
theorem mem_walkFrom {n : Nat} (fuel k : Nat) (hfuel : n ≤ fuel + k) (p : Nat × Nat) :
    p ∈ walkFrom n fuel (stripStart n k) (k % 2 == 0) ↔ p.1 < n ∧ Covered n p.2 ∧ k ≤ fromRight n p.2 / 2 := by
  induction fuel generalizing k with
  | zero =>
    refine ⟨nofun, fun ⟨hr, _, hk⟩ => ?_⟩
    have := fromRight_cases n p.2
    omega
  | succ fuel ih =>
    by_cases h : stripStart n k = 0
    · rw [walkFrom_of_zero _ _ h]
      exact ⟨nofun, fun ⟨_, hcov⟩ => absurd hcov (not_covered_of_zero h)⟩
    · rw [walkFrom_succ fuel h, List.mem_append, ih (k + 1) (by omega), mem_stripCells, stripRight_columns h]
      constructor
      · rintro (⟨hr, hcov, hk⟩ | ⟨hr, hcov, hk⟩) <;> exact ⟨hr, hcov, by omega⟩
      · rintro ⟨hr, hcov, hk⟩
        rcases Nat.eq_or_lt_of_le hk with hk | hk
        · exact .inl ⟨hr, hcov, hk.symm⟩
        · exact .inr ⟨hr, hcov, hk⟩

theorem mem_walk (n : Nat) (p : Nat × Nat) : p ∈ walk n ↔ p.1 < n ∧ Covered n p.2 := by
  rw [walk_eq_walkFrom, mem_walkFrom n 0 (by omega)]
  simp

/-! ### The places along the walk -/

theorem visitPlace_eq (n r c : Nat) : visitPlace n (r, c) =
    2 * n * (fromRight n c / 2) + 2 * (if fromRight n c / 2 % 2 = 0 then n - 1 - r else r) + fromRight n c % 2 := rfl

/-- A position of an earlier strip comes before one of a later strip. -/
theorem visitPlace_lt_of_strip_lt {n : Nat} {p q : Nat × Nat} (hp : p.1 < n) (h : fromRight n p.2 / 2 < fromRight n q.2 / 2) :
    visitPlace n p < visitPlace n q := by
  have hmul : 2 * n * (fromRight n p.2 / 2 + 1) ≤ 2 * n * (fromRight n q.2 / 2) := Nat.mul_le_mul_left _ h
  rw [Nat.mul_succ] at hmul
  rw [visitPlace_eq, visitPlace_eq]
  split <;> omega

/-- The rows of a strip upward in the even strips and downward in the others. -/
theorem stripRows_pairwise (n k : Nat) :
    (stripRows n k).Pairwise fun r r' => r < n ∧ r' < n ∧ if k % 2 = 0 then r' < r else r < r' := by
  refine List.Pairwise.imp_of_mem (R := fun r r' => if k % 2 = 0 then r' < r else r < r')
    (fun hr hr' h => ⟨mem_stripRows.1 hr, mem_stripRows.1 hr', h⟩) ?_
  unfold stripRows
  by_cases h : k % 2 = 0
  · simpa [h, List.pairwise_reverse] using List.pairwise_lt_range
  · simpa [h] using List.pairwise_lt_range

theorem stripCells_pairwise {n k : Nat} (h : stripStart n k ≠ 0) :
    (stripCells n k (stripRight (stripStart n k))).Pairwise fun p q => visitPlace n p < visitPlace n q := by
  have hright := fromRight_stripRight h
  have hleft := fromRight_stripRight_sub_one h
  generalize stripRight (stripStart n k) = c at *
  have placeRight (r : Nat) : visitPlace n (r, c) = 2 * n * k + 2 * (if k % 2 = 0 then n - 1 - r else r) := by
    rw [visitPlace_eq, hright, show 2 * k / 2 = k by omega, show 2 * k % 2 = 0 by omega]
    rfl
  have placeLeft (r : Nat) : visitPlace n (r, c - 1) = 2 * n * k + 2 * (if k % 2 = 0 then n - 1 - r else r) + 1 := by
    rw [visitPlace_eq, hleft, show (2 * k + 1) / 2 = k by omega, show (2 * k + 1) % 2 = 1 by omega]
  refine List.pairwise_flatMap.2 ⟨fun r _ => ?_, (stripRows_pairwise n k).imp ?_⟩
  · simp [placeRight, placeLeft]
  · rintro r r' ⟨hr, hr', hlt⟩ p hp q hq
    have hp : visitPlace n p ≤ visitPlace n (r, c - 1) := by
      simp only [List.mem_cons, List.not_mem_nil, or_false] at hp
      rcases hp with rfl | rfl
      · rw [placeRight, placeLeft]; omega
      · exact Nat.le_refl _
    have hq : visitPlace n (r', c) ≤ visitPlace n q := by
      simp only [List.mem_cons, List.not_mem_nil, or_false] at hq
      rcases hq with rfl | rfl
      · exact Nat.le_refl _
      · rw [placeRight, placeLeft]; omega
    rw [placeLeft] at hp
    rw [placeRight] at hq
    by_cases hk : k % 2 = 0
    · simp only [if_pos hk] at hp hq hlt
      omega
    · simp only [if_neg hk] at hp hq hlt
      omega

theorem walkFrom_pairwise {n : Nat} (fuel k : Nat) (hfuel : n ≤ fuel + k) :
    (walkFrom n fuel (stripStart n k) (k % 2 == 0)).Pairwise fun p q => visitPlace n p < visitPlace n q := by
  induction fuel generalizing k with
  | zero => exact .nil
  | succ fuel ih =>
    by_cases h : stripStart n k = 0
    · rw [walkFrom_of_zero _ _ h]
      exact .nil
    · rw [walkFrom_succ fuel h]
      refine List.pairwise_append.2 ⟨stripCells_pairwise h, ih (k + 1) (by omega), fun p hp q hq => ?_⟩
      obtain ⟨hrow, hcol⟩ := mem_stripCells.1 hp
      obtain ⟨-, hstrip⟩ := (stripRight_columns h).1 hcol
      obtain ⟨-, -, hstrip'⟩ := (mem_walkFrom fuel (k + 1) (by omega) q).1 hq
      exact visitPlace_lt_of_strip_lt hrow (by omega)

theorem zigzag_pairwise (g : Grid) (n : Nat) : (zigzag g n).Pairwise fun p q => visitPlace n p < visitPlace n q := by
  refine List.Pairwise.filter _ ?_
  rw [walk_eq_walkFrom]
  exact walkFrom_pairwise n 0 (by omega)

theorem zigzag_nodup (g : Grid) (n : Nat) : (zigzag g n).Nodup :=
  (zigzag_pairwise g n).imp fun hlt heq => absurd (congrArg (visitPlace n) heq) (Nat.ne_of_lt hlt)

/-- Settles O46: the free cells of the walk, whose places grow along it. -/
theorem zigzagOrderCovers : Obligations.ZigzagOrderCovers := by
  refine fun g n _ _ => ⟨zigzag_nodup g n, fun r c => ?_, zigzag_pairwise g n⟩
  simp only [zigzag, List.mem_filter, mem_walk, Covered, Bool.not_eq_true']
  tauto

/-! ### DP.ZIGZAG (R242) -/

/-- Cell `k` of a list without repeats gets bit `k` of the bits placed in it. -/
theorem cell_placeBits_getD {g : Grid} {cw : List Byte} {ps : List (Nat × Nat)} (hnodup : ps.Nodup) (hcol : ∀ p ∈ ps, p.2 < 256)
    (first k : Nat) (hk : k < ps.length) :
    (placeBits g cw first ps).cell (ps.getD k (0, 0)).1 (ps.getD k (0, 0)).2 =
      ⟨streamBit cw (first + k), (g.cell (ps.getD k (0, 0)).1 (ps.getD k (0, 0)).2).reserved⟩ := by
  induction ps generalizing g first k with
  | nil => exact absurd hk (Nat.not_lt_zero k)
  | cons p ps ih =>
    obtain ⟨hp, hnodup⟩ := List.nodup_cons.1 hnodup
    have hcol' : ∀ q ∈ ps, q.2 < 256 := fun q hq => hcol q (List.mem_cons_of_mem _ hq)
    cases k with
    | zero =>
      have hother : ∀ q ∈ ps, cellKey p.1 p.2 ≠ cellKey q.1 q.2 := fun q hq hkey =>
        hp (Prod.ext_iff.2 (cellKey_inj (hcol p List.mem_cons_self) (hcol' q hq) hkey) ▸ hq)
      show (placeBits (g.setModule p.1 p.2 (streamBit cw first)) cw (first + 1) ps).cell p.1 p.2 = _
      rw [cell_placeBits_other _ _ _ _ _ _ hother, Grid.cell_setModule_same]
      rfl
    | succ k =>
      have hnext := ih (g := g.setModule p.1 p.2 (streamBit cw first)) hnodup hcol' (first + 1) k (by simpa using hk)
      rw [Grid.reserved_setModule, Nat.add_right_comm] at hnext
      exact hnext

/-- After the last codeword the stream is light (R240). -/
theorem streamBit_eq (cw : List Byte) (k : Nat) :
    streamBit cw k = if k < 8 * cw.length then (cw.getD (k / 8) 0).getLsbD (7 - k % 8) else false := by
  unfold streamBit
  split
  · rfl
  · rw [List.getD_eq_default _ _ (by omega)]
    exact BitVec.getLsbD_zero

theorem exec_dpZigzag (s : State) (h : s.side ≠ 0) : exec .dpZigzag s =
    if (zigzag s.grid s.side).length < 8 * s.cwLen.toNat then raise s .length 5 s.cwLen.toNat
    else match s.bytes .cwOut s.cwLen.toNat with
      | none => uninit s
      | some cw => finish (s.withGrid (placeBits s.grid cw 0 (zigzag s.grid s.side))) :=
  if_neg h

/-- Settles O45: the order has no repeats, so each of its cells keeps its own bit. -/
theorem zigzagResult : Obligations.ZigzagResult := by
  intro s cw hside hcw hlen cells hfits
  have hside' : s.side ≠ 0 := hside
  have hcol : ∀ p ∈ cells, p.2 < 256 := fun p hp => Nat.lt_trans (zigzag_inSide _ _ p hp).2 s.side_lt
  have hexec : exec .dpZigzag s = .next (s.withGrid (placeBits s.grid cw 0 cells)).complete := by
    rw [exec_dpZigzag s hside', if_neg (by rw [← hlen]; exact Nat.not_lt.2 hfits), ← hlen, State.bytes_of_holds hcw]
    rfl
  refine ⟨_, hexec, rfl, rfl, rfl, fun k hk => ?_, fun r c hc hout => ?_⟩
  · have hmem : cells.getD k (0, 0) ∈ cells := by
      rw [List.getD_eq_getElem _ _ hk]
      exact List.getElem_mem hk
    have hcell := cell_placeBits_getD (g := s.grid) (cw := cw) (zigzag_nodup _ _) hcol 0 k hk
    rw [zigzag_free _ _ _ hmem, Nat.zero_add, streamBit_eq] at hcell
    exact hcell
  · refine cell_placeBits_other _ _ _ _ _ _ fun p hp hkey => hout ?_
    obtain ⟨hrow, hcol'⟩ := cellKey_inj hc (hcol p hp) hkey
    rw [hrow, hcol']
    exact hp

/-- Settles O47. -/
theorem zigzagFaults : Obligations.ZigzagFaults := by
  refine fun s => ⟨fun h => ?_, fun h hlong => ?_⟩
  · have hexec : exec .dpZigzag s = raise s .range 2 0 := if_pos h
    rw [hexec, raise_eq_faultedWith s .range (by decide) (by decide)]
    rfl
  · have hlong' : (zigzag s.grid s.side).length < 8 * s.cwLen.toNat := hlong
    rw [exec_dpZigzag s h, if_pos hlong', raise_eq_faultedWith s .length (by decide) (Nat.lt_trans s.cwLen.isLt (by decide)),
      BitVec.ofNat_toNat]
    rfl

end Sys2Proof.Machine
end
